-- ==== Sys2Proof/Word.lean ====
section
/-! DEFINITION. The widths of PLZFRM: the byte of the two streams and the word of the host bus (00 R8, 10 R47). -/

namespace Sys2Proof

/-- A byte of a frame, of the acknowledgement or of a one-byte register; bit 0 is the least significant (R8). -/
abbrev Byte := BitVec 8

/-- A word of the host bus: every register access moves 32 bits (R47, R61). -/
abbrev Word := BitVec 32

end Sys2Proof
end

