-- ==== Sys2Proof/Config.lean ====
section
/-! DEFINITION. What the spec fixes for the block or leaves to the platform: the constants of 00 R6 as one record, the
tie rule ROUND_TIES, and the three OPEN parameters of R7 as constants without a value. -/

namespace Sys2Proof

/-- How `rnd` resolves an exact half (R111, decision D3). -/
inductive RoundTies where
  | halfEven
  | halfUp
  deriving DecidableEq, Repr

/-- The block's constants (R6) and its rounding parameter (R7), held together as 93 U7 asks. -/
structure Config where
  startSymbol    : Byte
  ack1           : Byte
  ack2           : Byte
  opTone         : Byte
  opSweep        : Byte
  opStop         : Byte
  devChipA       : Byte
  devChipB       : Byte
  sweepFlag      : Byte
  gainBase       : Nat
  refclkDiv      : Nat
  freqDiv        : Nat
  fieldMax       : Nat
  ackLen         : Nat
  timeoutDefault : Word
  roundTies      : RoundTies
  deriving DecidableEq, Repr

/-- The values of R6 and R7. UNVERIFIED: the numeric literals are the source's, which nobody audited (log entry 9), and
`roundTies` is the spec's decision D3, which the source does not confirm (log entry 8). Both unsafe. -/
def Config.plzfrm : Config where
  startSymbol := 0xAD
  ack1 := 0x66
  ack2 := 0x13
  opTone := 0x01
  opSweep := 0x02
  opStop := 0xFF
  devChipA := 1
  devChipB := 2
  sweepFlag := 0x01
  gainBase := 4
  refclkDiv := 100
  freqDiv := 1000
  fieldMax := 16777215
  ackLen := 3
  timeoutDefault := 1000000
  roundTies := .halfEven

/-- `BASE`, the platform address of the register window: OPEN (R7, D22; log entry 10). Safe: nothing evaluates it. -/
opaque Config.base : Nat

/-- `TICK_PERIOD` in nanoseconds: OPEN, nominally 1000 (R7, R235, D13; log entry 10). No transition reads it. Safe. -/
opaque Config.tickPeriod : Nat

/-- `T_DRAIN` in nanoseconds, the host's quiet time after STOP_NOACK: OPEN (R7, R227, D31; log entry 10). No transition
reads it: a device reply may arrive at any time. Safe. -/
opaque Config.tDrain : Nat

end Sys2Proof
end

