-- ==== Sys2Proof/Syntax.lean ====
section
/-! DEFINITION. The command words of the block: one constructor per row of spec/opcode_table.json (30 R82, R84). -/

namespace Sys2Proof

/-- What a word written to CMD asks for (30 R83). -/
inductive Instr where
  /-- TONE, the source's `start_tone` (41 R141). -/
  | tone
  /-- SWEEP, the source's `start_sweep` (41 R142). -/
  | sweep
  /-- STOP, the source's `stop(expect_ack=true)` (41 R143). -/
  | stop
  /-- STOP_NOACK, the source's `stop(expect_ack=false)` (41 R144). -/
  | stopNoack
  /-- ILLEGAL: any other word `w`, kept because CMD reads it back (41 R145, 10 R21). -/
  | illegal (w : Word)
  deriving DecidableEq, Repr

/-- The four legal commands, the argument of `encode` in 40 R124 ("never ILLEGAL here", R110). -/
inductive Command where
  | tone
  | sweep
  | stop
  | stopNoack
  deriving DecidableEq, Repr

end Sys2Proof
end

