-- ==== Sys2Proof/Decode.lean ====
section
/-! DEFINITION. The command word's layout (30 R81), the four legal words built from the constants of 00 R6 (30 R82), the
decoder (30 R83), total on the 32-bit words the host bus carries, and its encoder. -/

namespace Sys2Proof

/-- The CMD word laid out by field: RSVD in bits 31:9, NOACK in bit 8, OP in bits 7:0 (30 R81). -/
def commandWord (rsvd : BitVec 23) (noack : Bool) (op : Byte) : Word :=
  rsvd ++ BitVec.ofBool noack ++ op

/-- The word of TONE: OP_TONE, NOACK 0 (30 R82). -/
def toneWord : Word := commandWord 0 false Config.plzfrm.opTone

/-- The word of SWEEP: OP_SWEEP, NOACK 0 (30 R82). -/
def sweepWord : Word := commandWord 0 false Config.plzfrm.opSweep

/-- The word of STOP: OP_STOP, NOACK 0 (30 R82). -/
def stopWord : Word := commandWord 0 false Config.plzfrm.opStop

/-- The word of STOP_NOACK: OP_STOP, NOACK 1 (30 R82). -/
def stopNoackWord : Word := commandWord 0 true Config.plzfrm.opStop

/-- `decode_cmd`: compares all 32 bits; a word outside the table is ILLEGAL, by name (30 R83, R84). -/
def decode (w : Word) : Instr :=
  if w = toneWord then .tone
  else if w = sweepWord then .sweep
  else if w = stopWord then .stop
  else if w = stopNoackWord then .stopNoack
  else .illegal w

/-- The command word that stands for an instruction (30 R82); ILLEGAL is its own word. -/
def encode : Instr → Word
  | .tone => toneWord
  | .sweep => sweepWord
  | .stop => stopWord
  | .stopNoack => stopNoackWord
  | .illegal w => w

/-- The decoder on a row of the opcode table: `w` holds the `nbits` low bits of the one word a command has, the bits
above are 0; a number that fits no 32-bit word is no command word (log entry 18). -/
def decodeTableWord (nbits w : Nat) : Option Instr :=
  if w % 2 ^ nbits < 2 ^ 32 then some (decode (BitVec.ofNat 32 (w % 2 ^ nbits))) else none

end Sys2Proof
end

