-- ==== Sys2Proof/Machine/State.lean ====
section
/-! DEFINITION. The block's state as plain data (10 R20 to R47): parameter registers, engine, and the MODEL's own record
of the ports; what stops a step; the state after reset (R46). -/

namespace Sys2Proof.Machine

/-- `eng.st`, the sequencer state (10 R40). -/
inductive EngineState where
  | idle
  | send
  | waitAck
  deriving DecidableEq, Repr

/-- The result codes of a command (60 R191); codes 6..15 have no constructor, they are never produced. -/
inductive ErrorCode where
  | ok
  | cmd
  | param
  | timeout
  | io
  | badAck
  deriving DecidableEq, Repr

/-- The source's classes of failure (60 R192). -/
inductive ErrorClass where
  | invalidParameter
  | communication
  | unexpectedResponse
  deriving DecidableEq, Repr

/-- The source's per-call states, as 10 R23 maps them. `sending` is its step `Idle -> FrameSent` in progress. -/
inductive CallState where
  | idle
  | sending
  | frameSent
  | acked
  | failed
  deriving DecidableEq, Repr

/-- The registers of the window (10 R20). -/
inductive Reg where
  | cmd
  | status
  | devtype
  | gain
  | refclk
  | timeout
  | f0Lo
  | f0Hi
  | f1Lo
  | f1Hi
  | step
  | ackdata
  | frameinfo
  | tcount
  | framebuf0
  | framebuf1
  | framebuf2
  | framebuf3
  | framebuf4
  deriving DecidableEq, Repr

/-- The width of a host access; only `word` is served (20 R61). -/
inductive AccessWidth where
  | byte
  | half
  | word
  deriving DecidableEq, Repr

/-- What a host access does. -/
inductive AccessKind where
  | read
  | write (w : Word)
  deriving DecidableEq, Repr

/-- One access on the host bus, at a byte offset from BASE; the bus has 7 offset bits (10 R47, 20 R60). -/
structure Access where
  kind   : AccessKind
  width  : AccessWidth
  offset : BitVec 7
  deriving DecidableEq, Repr

/-- The signals the input ports carry in one clock cycle (10 R47). At most one access, one received byte, one TX
acceptance and one tick fit in a cycle. -/
structure Cycle where
  /-- `rst` -/
  rst     : Bool := false
  /-- the host bus -/
  host    : Option Access := none
  /-- `link_err` -/
  linkErr : Bool := false
  /-- `tx_ready` -/
  txReady : Bool := false
  /-- `rx_valid` with `rx_data` -/
  rx      : Option Byte := none
  /-- `tick` -/
  tick    : Bool := false
  deriving DecidableEq, Repr

/-- The atomic events of the block (20 R66). -/
inductive Event where
  | reset
  | host (a : Access)
  | linkErr
  | txAccept
  | rxByte (b : Byte)
  | tick
  deriving DecidableEq, Repr

/-- Why a host access gets an ERROR response. -/
inductive BusError where
  /-- a width other than 32 bits (20 R61) -/
  | width
  /-- an offset that is not a multiple of 4 (20 R61) -/
  | misaligned
  /-- an offset no register occupies (20 R62) -/
  | unmapped
  deriving DecidableEq, Repr

/-- The host bus's answer to the last access: an ERROR returns no data (20 R61, 93 U23). -/
inductive BusResp where
  | none
  | okay
  | data (w : Word)
  | error
  deriving DecidableEq, Repr

/-- The parameter registers, read by the engine only at GO (10 R30 to R36, R42). -/
structure Regs where
  devtype : Byte
  gain    : BitVec 2
  refclk  : Word
  timeout : Word
  f0Lo    : Word
  f0Hi    : Word
  f1Lo    : Word
  f1Hi    : Word
  step    : Word
  deriving DecidableEq, Repr

/-- The engine's state (10 R40). The three counts are Nat; the registers that show them take their low bits, which
`State.Inv` proves to be all of them (DESIGN CHOICE, log entry 14, safe). -/
structure Engine where
  cmdLast   : Word
  st        : EngineState
  expectAck : Bool
  frame     : Vector Byte 18
  flen      : Nat
  txcount   : Nat
  ack       : Vector Byte 3
  ackcnt    : Nat
  tcount    : Word
  tlimit    : Word
  done      : Bool
  err       : BitVec 4
  overrun   : Bool
  rxdisc    : Bool
  deriving DecidableEq, Repr

/-- The whole machine: the block's registers and engine, and the ports (log entries 1, 5, 6). -/
structure State where
  regs    : Regs
  eng     : Engine
  /-- what the input ports will carry, cycle by cycle, oldest first: the environment's choice (00 R11) -/
  inputs  : List Cycle
  /-- the TX byte stream: every byte that has left the block, oldest first (20 R60) -/
  txOut   : List Byte
  /-- the response to the last host access -/
  busResp : BusResp
  deriving DecidableEq, Repr

/-- What stops a step with a fault. -/
inductive Fault where
  /-- Raised by `hostAccess`, for an access the block answers with ERROR: `why` is the reason and `after` the machine
  after the refused access, unchanged but for the response. The spec treats it as a fault of the host (20 R61, R62,
  D19, 93 U21, U23). Safe: the hardware goes on from `after`, the model's run stops (log entry 4). -/
  | hostError (why : BusError) (after : State)
  deriving DecidableEq, Repr

/-- What stops a step by a refusal. -/
inductive Refusal where
  /-- Raised by an arm of `exec` whose instruction has no meaning yet: none is left. Safe. -/
  | notModelled (mnemonic : String)
  /-- Raised by `hostScriptStep` alone, never by `step`: a script branches on a value that no earlier statement kept
  (30 R93 gives such a script no meaning; log entry 19). Safe. -/
  | unkeptName (name : String)
  deriving DecidableEq, Repr

/-- The parameter registers after reset (10 R46). -/
def Regs.reset : Regs where
  devtype := 0x00
  gain := 0
  refclk := 0
  timeout := Config.plzfrm.timeoutDefault
  f0Lo := 0
  f0Hi := 0
  f1Lo := 0
  f1Hi := 0
  step := 0

/-- The engine after reset (10 R46). -/
def Engine.reset : Engine where
  cmdLast := 0x00000000
  st := .idle
  expectAck := false
  frame := Vector.replicate 18 0
  flen := 0
  txcount := 0
  ack := Vector.replicate 3 0
  ackcnt := 0
  tcount := 0
  tlimit := 0
  done := false
  err := 0
  overrun := false
  rxdisc := false

/-- The machine right after reset (10 R46), with nothing yet on any port. DESIGN CHOICE for the model's own three fields
(log entries 1, 5, 6). -/
def State.reset : State where
  regs := Regs.reset
  eng := Engine.reset
  inputs := []
  txOut := []
  busResp := .none

end Sys2Proof.Machine
end

