-- ==== Sys2Proof/Machine/Operands.lean ====
section
/-! DEFINITION. The operands of a command and their encodings as frame fields (40 R110 to R122, 20 R70): rounding,
scaling, big-endian packing, gain byte, device byte, range check, checksum. -/

namespace Sys2Proof.Machine

/-- The constants the block runs with (00 R6, R7). -/
def params : Config := Config.plzfrm

/-- F0 in hertz: the pair of halves as it stands (10 R34, 20 R70). -/
def Regs.f0 (r : Regs) : Nat := r.f0Hi.toNat * 2 ^ 32 + r.f0Lo.toNat

/-- F1 in hertz (10 R35, 20 R70). -/
def Regs.f1 (r : Regs) : Nat := r.f1Hi.toNat * 2 ^ 32 + r.f1Lo.toNat

/-- `rnd(n, d)`: n / d to the nearest integer, an exact half by the tie rule (40 R111). -/
def rnd (ties : RoundTies) (n d : Nat) : Nat :=
  let q := n / d
  let r := n % d
  if 2 * r < d then q
  else if d < 2 * r then q + 1
  else
    match ties with
    | .halfEven => q + q % 2
    | .halfUp => q + 1

/-- The reference-clock field, in units of 100 Hz (40 R112). -/
def refclkField (cfg : Config) (r : Regs) : Nat := rnd cfg.roundTies r.refclk.toNat cfg.refclkDiv

/-- The field of a frequency in hertz, in units of 1 kHz (40 R113). -/
def freqField (cfg : Config) (hz : Nat) : Nat := rnd cfg.roundTies hz cfg.freqDiv

/-- The sweep-step field: raw hertz, not divided (40 R114). -/
def stepField (r : Regs) : Nat := r.step.toNat

/-- A scaled field fits its three bytes (40 R115); a negative one cannot occur (R116). -/
def fits (cfg : Config) (v : Nat) : Bool := v ≤ cfg.fieldMax

/-- A step that SWEEP accepts: at least 1 (40 R129) and in range (R115). -/
def stepLegal (cfg : Config) (v : Nat) : Bool := v ≠ 0 && fits cfg v

/-- The device bytes the encoder accepts: ChipA and ChipB (40 R119, 10 R48). -/
def deviceLegal (cfg : Config) (dev : Byte) : Bool := dev = cfg.devChipA || dev = cfg.devChipB

/-- The gain byte, 4 - index, a whole byte (40 R118, conflict C6). -/
def gainByte (cfg : Config) (g : BitVec 2) : Byte := BitVec.ofNat 8 (cfg.gainBase - g.toNat)

/-- `be3(v)`: three bytes, most significant first; callers have checked `fits` (40 R120). -/
def be3 (v : Nat) : List Byte :=
  [BitVec.ofNat 8 (v / 65536), BitVec.ofNat 8 (v / 256), BitVec.ofNat 8 v]

/-- The value of three bytes, most significant first: what a receiver reads from a scaled field (40 R128). -/
def fromBe3 (b2 b1 b0 : Byte) : Nat := b2.toNat * 65536 + b1.toNat * 256 + b0.toNat

/-- `sum8(s)`: the sum of the bytes mod 256 (40 R121). -/
def sum8 (s : List Byte) : Byte := BitVec.ofNat 8 (s.map BitVec.toNat).sum

/-- A frame from its body: the checksum of every byte before it comes last (40 R122). -/
def withChecksum (body : List Byte) : List Byte := body ++ [sum8 body]

end Sys2Proof.Machine
end

