-- ==== Sys2Proof/Machine/Flags.lean ====
section
/-! DEFINITION. The flags: the STATUS word (10 R22 to R28, R44), the codes of ERR with their classes
(60 R191, R192), and the source's per-call state that STATUS shows (10 R23). -/

namespace Sys2Proof.Machine

/-- The number of a result code (60 R191). -/
def ErrorCode.code : ErrorCode → BitVec 4
  | .ok => 0
  | .cmd => 1
  | .param => 2
  | .timeout => 3
  | .io => 4
  | .badAck => 5

/-- The class of a failure; OK has none (60 R192). -/
def ErrorCode.errorClass : ErrorCode → Option ErrorClass
  | .ok => none
  | .cmd => some .invalidParameter
  | .param => some .invalidParameter
  | .timeout => some .communication
  | .io => some .communication
  | .badAck => some .unexpectedResponse

/-- STATUS.STATE; 3 is never read (10 R22, 93 U22). -/
def EngineState.code : EngineState → BitVec 2
  | .idle => 0
  | .send => 1
  | .waitAck => 2

/-- STATUS.BUSY: 1 while the engine is not IDLE (10 R22). -/
def Engine.busy (e : Engine) : Bool := e.st ≠ .idle

/-- The STATUS word by field: reserved 31:18, RXDISC 17, OVERRUN 16, reserved 15:12, ERR 11:8, reserved 7:5, DONE 4,
EXPECT_ACK 3, STATE 2:1, BUSY 0 (10 R22). -/
def statusWord (e : Engine) : Word :=
  (0 : BitVec 14) ++ BitVec.ofBool e.rxdisc ++ BitVec.ofBool e.overrun ++ (0 : BitVec 4) ++ e.err
    ++ (0 : BitVec 3) ++ BitVec.ofBool e.done ++ BitVec.ofBool e.expectAck ++ e.st.code ++ BitVec.ofBool e.busy

/-- The source's per-call state that STATUS stands for (10 R23); only its terminal states read ERR. -/
def callState (e : Engine) : CallState :=
  match e.st with
  | .send => .sending
  | .waitAck => .frameSent
  | .idle => if e.done then (if e.err = 0 then .acked else .failed) else .idle

end Sys2Proof.Machine
end

