-- ==== Sys2Proof/Machine/Frame.lean ====
section
/-! DEFINITION. The wire formats: the frame encoder (40 R124, 30 R85 to R88), the frame buffer's filling (40 R127), the
acknowledgement decoder (42 R169), and a receiver's reading of a frame (30 R90). -/

namespace Sys2Proof.Machine

/-- The body of a Stop frame (30 R88); STOP and STOP_NOACK send identical bytes. -/
def stopBody (cfg : Config) (r : Regs) : List Byte := [cfg.startSymbol, r.devtype, cfg.opStop]

/-- The body of a Tone frame (30 R86). -/
def toneBody (cfg : Config) (r : Regs) : List Byte :=
  [cfg.startSymbol, r.devtype, cfg.opTone, gainByte cfg r.gain]
    ++ be3 (refclkField cfg r) ++ be3 (freqField cfg r.f0)

/-- The body of a Sweep frame (30 R87). -/
def sweepBody (cfg : Config) (r : Regs) : List Byte :=
  [cfg.startSymbol, r.devtype, cfg.opSweep, gainByte cfg r.gain]
    ++ be3 (refclkField cfg r) ++ be3 (freqField cfg r.f0) ++ be3 (freqField cfg r.f1)
    ++ be3 (stepField r) ++ [cfg.sweepFlag]

/-- `encode(c)`: the checks in the order of 40 R124 (60 R199), the first failing one decides; each command checks only
the registers it reads. -/
def encodeFrame (cfg : Config) (c : Command) (r : Regs) : Except ErrorCode (List Byte) :=
  if deviceLegal cfg r.devtype = false then .error .param
  else
    match c with
    | .stop => .ok (withChecksum (stopBody cfg r))
    | .stopNoack => .ok (withChecksum (stopBody cfg r))
    | .tone =>
      if fits cfg (refclkField cfg r) = false then .error .param
      else if fits cfg (freqField cfg r.f0) = false then .error .param
      else .ok (withChecksum (toneBody cfg r))
    | .sweep =>
      if fits cfg (refclkField cfg r) = false then .error .param
      else if fits cfg (freqField cfg r.f0) = false then .error .param
      else if fits cfg (freqField cfg r.f1) = false then .error .param
      else if stepLegal cfg (stepField r) = false then .error .param
      else .ok (withChecksum (sweepBody cfg r))

/-- The frame buffer that holds `bytes`, zero-filled to 18 (40 R127). -/
def zeroFill (bytes : List Byte) : Vector Byte 18 := Vector.ofFn fun i => bytes.getD i.val 0

/-- `decode_ack`: AD 66 13 and nothing else is an acknowledgement (42 R169, 30 R89). -/
def decodeAck (cfg : Config) (a0 a1 a2 : Byte) : ErrorCode :=
  if a0 = cfg.startSymbol ∧ a1 = cfg.ack1 ∧ a2 = cfg.ack2 then .ok else .badAck

/-- The length of a frame, told from its opcode byte (30 R90). -/
def frameLength (cfg : Config) (op : Byte) : Option Nat :=
  if op = cfg.opTone then some 11
  else if op = cfg.opSweep then some 18
  else if op = cfg.opStop then some 4
  else none

/-- What a receiver reads from a frame: the fields of 30 R91, each as the number it stands for. -/
inductive WireFrame where
  | tone (dev gain : Byte) (ref freq : Nat)
  | sweep (dev gain : Byte) (ref start stop step : Nat)
  | stop (dev : Byte)
  deriving DecidableEq, Repr

/-- Reading a frame: start symbol, opcode, length, the sweep flag and the checksum must be as 30 R85 to R88 lay them
out, else there is no frame. -/
def parseFrame (cfg : Config) : List Byte → Option WireFrame
  | [s, dev, op, ck] =>
    if s = cfg.startSymbol ∧ op = cfg.opStop ∧ ck = sum8 [s, dev, op] then some (.stop dev) else none
  | [s, dev, op, g, r2, r1, r0, f2, f1, f0, ck] =>
    if s = cfg.startSymbol ∧ op = cfg.opTone ∧ ck = sum8 [s, dev, op, g, r2, r1, r0, f2, f1, f0] then
      some (.tone dev g (fromBe3 r2 r1 r0) (fromBe3 f2 f1 f0))
    else none
  | [s, dev, op, g, r2, r1, r0, a2, a1, a0, e2, e1, e0, t2, t1, t0, fl, ck] =>
    if s = cfg.startSymbol ∧ op = cfg.opSweep ∧ fl = cfg.sweepFlag
        ∧ ck = sum8 [s, dev, op, g, r2, r1, r0, a2, a1, a0, e2, e1, e0, t2, t1, t0, fl] then
      some (.sweep dev g (fromBe3 r2 r1 r0) (fromBe3 a2 a1 a0) (fromBe3 e2 e1 e0) (fromBe3 t2 t1 t0))
    else none
  | _ => none

end Sys2Proof.Machine
end

