-- ==== Sys2Proof/Machine/Ops.lean ====
section
/-! DEFINITION. The shared operations on the engine: completion, the block's only trap entry (42 R175, 60 R201), with the
return from it beside it (60 R202); the parts of a GO (41 R140); the busy write (41 R146); reset (70 R220). -/

namespace Sys2Proof.Machine

/-- `complete(code)`: ends the current command; everything but `st`, `done` and `err` keeps its value (42 R175). -/
def complete (code : ErrorCode) (e : Engine) : Engine :=
  { e with st := .idle, done := true, err := code.code }

/-- A host write of `w` to STATUS, the return from a completion (60 R202): a 1 in bit 4, 16 or 17 clears DONE, OVERRUN or
RXDISC, other bits are ignored (10 R29). The other return is the next GO, `goPrologue`. -/
def statusWrite (w : Word) (e : Engine) : Engine :=
  { e with
    done := e.done && !w.getLsbD 4
    overrun := e.overrun && !w.getLsbD 16
    rxdisc := e.rxdisc && !w.getLsbD 17 }

/-- The part of a GO every command word shares (41 R140): the word is recorded, completion flag, code, acknowledgement
and counters are cleared. -/
def goPrologue (w : Word) (e : Engine) : Engine :=
  { e with
    cmdLast := w
    done := false
    err := 0
    ack := Vector.replicate 3 0
    ackcnt := 0
    tcount := 0
    txcount := 0 }

/-- `reject(e)`: the GO fails in its own event, with an empty frame buffer (41 R140, 40 R127). -/
def reject (code : ErrorCode) (e : Engine) : Engine :=
  complete code { e with frame := zeroFill [], flen := 0, expectAck := false }

/-- The GO's success: the frame is latched, TIMEOUT sampled, sending starts (41 R140, 40 R127, 10 R33). -/
def accept (bytes : List Byte) (expectAck : Bool) (timeout : Word) (e : Engine) : Engine :=
  { e with
    frame := zeroFill bytes
    flen := bytes.length
    expectAck := expectAck
    tlimit := timeout
    st := .send }

/-- Whether a command reads an acknowledgement: all but STOP_NOACK (10 R28, 30 R82). -/
def Command.expectsAck : Command → Bool
  | .tone => true
  | .sweep => true
  | .stop => true
  | .stopNoack => false

/-- What a GO does after its prologue for a legal command: encode, then accept or reject (41 R140). -/
def startCommand (c : Command) (r : Regs) (e : Engine) : Engine :=
  match encodeFrame params c r with
  | .ok bytes => accept bytes (Command.expectsAck c) r.timeout e
  | .error code => reject code e

/-- A CMD write while busy: OVERRUN, and nothing else (41 R146). -/
def overrunWrite (e : Engine) : Engine := { e with overrun := true }

/-- A host write of command word `w`: a GO while IDLE (10 R21, 41 R140), an overrun while busy (41 R146). `command` is
what the decoded command does after the prologue. -/
def cmdWrite (w : Word) (command : Regs → Engine → Engine) (s : State) :
    Host.Outcome State Fault Refusal :=
  .next { s with
    eng := if s.eng.st = .idle then command s.regs (goPrologue w s.eng) else overrunWrite s.eng }

/-- Opening the acknowledgement window (42 R165). -/
def openWindow (e : Engine) : Engine :=
  { e with ackcnt := 0, ack := Vector.replicate 3 0, tcount := 0, st := .waitAck }

/-- The Reset event: every register and engine item to its reset value, from any state, with no completion (70 R220).
The bytes already on the link stay there (70 R221; log entry 5), the ports' future stays the environment's. -/
def resetBlock (s : State) : State := { s with regs := Regs.reset, eng := Engine.reset }

end Sys2Proof.Machine
end

