-- ==== Sys2Proof/Machine/Commands.lean ====
section
/-! DEFINITION. The meanings of the command words, one per row of spec/opcode_table.json (41 R141 to R145), each the write
of its word to CMD: a GO while IDLE, an overrun while busy. -/

namespace Sys2Proof.Machine

/-- TONE (41 R141). -/
def execTone (s : State) : Host.Outcome State Fault Refusal :=
  cmdWrite (encode .tone) (startCommand .tone) s

/-- SWEEP (41 R142). -/
def execSweep (s : State) : Host.Outcome State Fault Refusal :=
  cmdWrite (encode .sweep) (startCommand .sweep) s

/-- STOP (41 R143). -/
def execStop (s : State) : Host.Outcome State Fault Refusal :=
  cmdWrite (encode .stop) (startCommand .stop) s

/-- STOP_NOACK (41 R144). -/
def execStopNoack (s : State) : Host.Outcome State Fault Refusal :=
  cmdWrite (encode .stopNoack) (startCommand .stopNoack) s

/-- ILLEGAL: rejected with ERR_CMD in the GO event, before any parameter is looked at (41 R145, 60 R193, R199). -/
def execIllegal (w : Word) (s : State) : Host.Outcome State Fault Refusal :=
  cmdWrite (encode (.illegal w)) (fun _ e => reject .cmd e) s

end Sys2Proof.Machine
end

