-- ==== Sys2Proof/Machine/Dispatch.lean ====
section
/-! DEFINITION. The dispatch of a decoded command word to its meaning, one arm per constructor. -/

namespace Sys2Proof.Machine

def exec (i : Instr) (s : State) : Host.Outcome State Fault Refusal :=
  match i with
  | .tone => Sys2Proof.Machine.execTone s
  | .sweep => Sys2Proof.Machine.execSweep s
  | .stop => Sys2Proof.Machine.execStop s
  | .stopNoack => Sys2Proof.Machine.execStopNoack s
  | .illegal w => Sys2Proof.Machine.execIllegal w s

end Sys2Proof.Machine
end

