-- ==== Sys2Proof/Machine/Exchange.lean ====
section
/-! DEFINITION. The exchange sequencer: what TX handshakes, received bytes, ticks and link errors do (42 R160 to R175),
and the TX port's outputs (10 R47, 42 R161). -/

namespace Sys2Proof.Machine

/-- `tx_valid`: 1 exactly while the engine is in SEND (10 R47). -/
def txValid (e : Engine) : Bool := e.st = .send

/-- `frame[i]`; the buffer has 18 bytes, past them there is none to read and 0 stands for it (log entry 13). -/
def frameByte (e : Engine) (i : Nat) : Byte := (e.frame[i]?).getD 0

/-- `tx_data`: `frame[txcount]` while `tx_valid` is 1; it carries no meaning otherwise (42 R161; DESIGN CHOICE, log
entry 7, safe: no byte is given). -/
def txData (e : Engine) : Option Byte := if txValid e then some (frameByte e e.txcount) else none

/-- What follows the handshake that takes the checksum byte: the acknowledgement window opens, or the command succeeds
at once (42 R163). -/
def afterLastByte (e : Engine) : Engine := if e.expectAck then openWindow e else complete .ok e

/-- `TxEmit` with the count of the byte taken (42 R162). -/
def emitByte (s : State) : State :=
  { s with
    eng := { s.eng with txcount := s.eng.txcount + 1 }
    txOut := s.txOut ++ [frameByte s.eng s.eng.txcount] }

/-- `TxAccept`: in SEND the byte leaves, and the last one ends SEND in the same event; there is no handshake in another
state (42 R162, R163; log entry 15). A count already past the frame has no row in 42 R160 and changes nothing (log
entry 13). -/
def txAccept (s : State) : State :=
  if txValid s.eng then
    if s.eng.txcount + 1 < s.eng.flen then emitByte s
    else if s.eng.txcount + 1 = s.eng.flen then
      { emitByte s with eng := afterLastByte (emitByte s).eng }
    else s
  else s

/-- `ack[ackcnt] <- b`, `ackcnt <- ackcnt + 1` (42 R167). -/
def storeAck (b : Byte) (e : Engine) : Engine :=
  { e with ack := e.ack.setIfInBounds e.ackcnt b, ackcnt := e.ackcnt + 1 }

/-- The code that three collected bytes complete with (42 R170). -/
def ackVerdict (e : Engine) : ErrorCode := decodeAck params e.ack[0] e.ack[1] e.ack[2]

/-- `RxByte(b)`: collected in the window, the third byte decoded and the command completed; outside the window
discarded with RXDISC (42 R167, R168, R170). -/
def rxByte (b : Byte) (e : Engine) : Engine :=
  match e.st with
  | .waitAck =>
    if e.ackcnt + 1 < params.ackLen then storeAck b e
    else if e.ackcnt + 1 = params.ackLen then complete (ackVerdict (storeAck b e)) (storeAck b e)
    else e
  | .idle => { e with rxdisc := true }
  | .send => { e with rxdisc := true }

/-- `Tick`: counted in the window only, and the tick that brings the count to the limit ends the command (42 R171 to
R173). The comparison is on the unbounded count; the register cannot wrap (42 R179, `State.Inv`). -/
def tickEvent (e : Engine) : Engine :=
  match e.st with
  | .waitAck =>
    if e.tlimit.toNat ≤ e.tcount.toNat + 1 then complete .timeout { e with tcount := e.tcount + 1 }
    else { e with tcount := e.tcount + 1 }
  | .idle => e
  | .send => e

/-- `LinkErr`: ends a command in progress with ERR_IO, counts and bytes kept; nothing in IDLE (42 R174). -/
def linkErrEvent (e : Engine) : Engine :=
  match e.st with
  | .send => complete .io e
  | .waitAck => complete .io e
  | .idle => e

end Sys2Proof.Machine
end

