-- ==== Sys2Proof/Machine/Bus.lean ====
section
/-! DEFINITION. The register window: its map (10 R20), host reads and writes of each register (10 R21 to R45), refused
accesses (20 R61, R62), and the platform address of an offset (20 R60). -/

namespace Sys2Proof.Machine

/-- The byte offset of a register in the window (10 R20). -/
def Reg.offset : Reg → BitVec 7
  | .cmd => 0x00
  | .status => 0x04
  | .devtype => 0x08
  | .gain => 0x0C
  | .refclk => 0x10
  | .timeout => 0x14
  | .f0Lo => 0x18
  | .f0Hi => 0x1C
  | .f1Lo => 0x20
  | .f1Hi => 0x24
  | .step => 0x28
  | .ackdata => 0x2C
  | .frameinfo => 0x30
  | .tcount => 0x34
  | .framebuf0 => 0x40
  | .framebuf1 => 0x44
  | .framebuf2 => 0x48
  | .framebuf3 => 0x4C
  | .framebuf4 => 0x50

/-- Every register of the window, in the order of 10 R20. -/
def allRegs : List Reg :=
  [.cmd, .status, .devtype, .gain, .refclk, .timeout, .f0Lo, .f0Hi, .f1Lo, .f1Hi, .step, .ackdata,
    .frameinfo, .tcount, .framebuf0, .framebuf1, .framebuf2, .framebuf3, .framebuf4]

/-- The register at an offset, if one is there (10 R20, 20 R62). -/
def regAt (off : BitVec 7) : Option Reg := allRegs.find? fun r => r.offset = off

/-- The registers no host write changes (10 R45, 20 R63). -/
def Reg.readOnly : Reg → Bool
  | .ackdata => true
  | .frameinfo => true
  | .tcount => true
  | .framebuf0 => true
  | .framebuf1 => true
  | .framebuf2 => true
  | .framebuf3 => true
  | .framebuf4 => true
  | _ => false

/-- One byte lane of ACKDATA: a position at or above `ackcnt` reads 0 (10 R37). -/
def ackLane (e : Engine) (j : Nat) : Byte := if j < e.ackcnt then (e.ack[j]?).getD 0 else 0

/-- ACKDATA: the count in bits 25:24, `ack[j]` in byte lane j (10 R37, 20 R69). -/
def ackdataWord (e : Engine) : Word :=
  (0 : BitVec 6) ++ BitVec.ofNat 2 e.ackcnt ++ ackLane e 2 ++ ackLane e 1 ++ ackLane e 0

/-- FRAMEINFO: TXCOUNT in bits 12:8, FLEN in bits 4:0 (10 R38). -/
def frameinfoWord (e : Engine) : Word :=
  (0 : BitVec 19) ++ BitVec.ofNat 5 e.txcount ++ (0 : BitVec 3) ++ BitVec.ofNat 5 e.flen

/-- One byte lane of FRAMEBUF: a position at or above `flen` reads 0 (10 R41). -/
def frameLane (e : Engine) (i : Nat) : Byte := if i < e.flen then frameByte e i else 0

/-- FRAMEBUFk: `frame[4k + j]` in byte lane j (10 R41, 20 R69). -/
def framebufWord (e : Engine) (k : Nat) : Word :=
  frameLane e (4 * k + 3) ++ frameLane e (4 * k + 2) ++ frameLane e (4 * k + 1) ++ frameLane e (4 * k)

/-- What a host read of a register returns; reserved bits read 0 (10 R21 to R41, R45). -/
def readReg (r : Reg) (s : State) : Word :=
  match r with
  | .cmd => s.eng.cmdLast
  | .status => statusWord s.eng
  | .devtype => s.regs.devtype.zeroExtend 32
  | .gain => s.regs.gain.zeroExtend 32
  | .refclk => s.regs.refclk
  | .timeout => s.regs.timeout
  | .f0Lo => s.regs.f0Lo
  | .f0Hi => s.regs.f0Hi
  | .f1Lo => s.regs.f1Lo
  | .f1Hi => s.regs.f1Hi
  | .step => s.regs.step
  | .ackdata => ackdataWord s.eng
  | .frameinfo => frameinfoWord s.eng
  | .tcount => s.eng.tcount
  | .framebuf0 => framebufWord s.eng 0
  | .framebuf1 => framebufWord s.eng 1
  | .framebuf2 => framebufWord s.eng 2
  | .framebuf3 => framebufWord s.eng 3
  | .framebuf4 => framebufWord s.eng 4

/-- A host write of `w` to a parameter register stores its defined bits; to any other register it leaves the parameters
alone (10 R30 to R36, 20 R63, R65). -/
def storeReg (r : Reg) (w : Word) (p : Regs) : Regs :=
  match r with
  | .devtype => { p with devtype := w.extractLsb' 0 8 }
  | .gain => { p with gain := w.extractLsb' 0 2 }
  | .refclk => { p with refclk := w }
  | .timeout => { p with timeout := w }
  | .f0Lo => { p with f0Lo := w }
  | .f0Hi => { p with f0Hi := w }
  | .f1Lo => { p with f1Lo := w }
  | .f1Hi => { p with f1Hi := w }
  | .step => { p with step := w }
  | _ => p

/-- An aligned 32-bit write to a register of the window: a command at CMD, W1C at STATUS, a plain store elsewhere,
nothing at a read-only register (20 R63, R65). -/
def writeReg (r : Reg) (w : Word) (s : State) : Host.Outcome State Fault Refusal :=
  match r with
  | .cmd => exec (decode w) s
  | .status => .next { s with eng := statusWrite w s.eng }
  | _ => .next { s with regs := storeReg r w s.regs }

/-- The register an access reaches, or why it is refused: 32 bits wide, at a multiple of 4, where a register is
(20 R61, R62). -/
def checkAccess (a : Access) : Except BusError Reg :=
  if a.width ≠ .word then .error .width
  else if a.offset.extractLsb' 0 2 ≠ 0 then .error .misaligned
  else
    match regAt a.offset with
    | none => .error .unmapped
    | some r => .ok r

/-- A host access: a refused one answers ERROR and changes nothing, a read returns the register and changes nothing, a
write takes its effect (20 R61 to R65). -/
def hostAccess (a : Access) (s : State) : Host.Outcome State Fault Refusal :=
  match checkAccess a with
  | .error why => .fault (.hostError why { s with busResp := .error })
  | .ok r =>
    match a.kind with
    | .read => .next { s with busResp := .data (readReg r s) }
    | .write w => writeReg r w { s with busResp := .okay }

/-- The platform address of an offset of the window (20 R60, D22). -/
def busAddress (off : BitVec 7) : Nat := Config.base + off.toNat

/-- The offset a platform address reaches: the window is 128 bytes from BASE, other addresses are not this block's
(10 R20, 20 R60). -/
def windowOffset (addr : Nat) : Option (BitVec 7) :=
  if Config.base ≤ addr ∧ addr < Config.base + 128 then some (BitVec.ofNat 7 (addr - Config.base)) else none

end Sys2Proof.Machine
end

