-- ==== Sys2Proof/Machine/Events.lean ====
section
/-! DEFINITION. The atomic events (20 R66): which signal of a clock cycle is processed next, and what each event does. -/

namespace Sys2Proof.Machine

/-- The first pending signal of a cycle in the order Reset, host access, LinkErr, TxAccept, RxByte, Tick, with what the
cycle holds after it (20 R66, 60 R200, D27; log entry 3). -/
def nextEvent (c : Cycle) : Option (Event × Cycle) :=
  if c.rst then some (.reset, { c with rst := false })
  else
    match c.host with
    | some a => some (.host a, { c with host := none })
    | none =>
      if c.linkErr then some (.linkErr, { c with linkErr := false })
      else if c.txReady then some (.txAccept, { c with txReady := false })
      else
        match c.rx with
        | some b => some (.rxByte b, { c with rx := none })
        | none => if c.tick then some (.tick, { c with tick := false }) else none

/-- The event the next step takes, if the current cycle still holds one. -/
def pendingEvent (s : State) : Option Event :=
  match s.inputs with
  | [] => none
  | c :: _ => (nextEvent c).map Prod.fst

/-- One atomic event of the block (20 R66). -/
def performEvent (ev : Event) (s : State) : Host.Outcome State Fault Refusal :=
  match ev with
  | .reset => .next (resetBlock s)
  | .host a => hostAccess a s
  | .linkErr => .next { s with eng := linkErrEvent s.eng }
  | .txAccept => .next (txAccept s)
  | .rxByte b => .next { s with eng := rxByte b s.eng }
  | .tick => .next { s with eng := tickEvent s.eng }

/-- One step: the next event of the current cycle; a cycle with nothing left is passed over; with no cycle left the
block waits as it is (42 R164, R178; log entries 1 and 2). -/
def stepInputs (s : State) : Host.Outcome State Fault Refusal :=
  match s.inputs with
  | [] => .next s
  | c :: cs =>
    match nextEvent c with
    | none => .next { s with inputs := cs }
    | some (ev, c') => performEvent ev { s with inputs := c' :: cs }

/-- A cycle in which the host writes `w` to CMD and no other signal is there. -/
def commandCycle (w : Word) : Cycle where
  host := some { kind := .write w, width := .word, offset := Reg.offset .cmd }

end Sys2Proof.Machine
end

