-- ==== Sys2Proof/Machine/Step.lean ====
section
/-! DEFINITION. The machine's step, and the placing of a command word where the next step takes it. -/

namespace Sys2Proof.Machine

/-- One step of the machine: one atomic event (20 R66). -/
def step (s : State) : Host.Outcome State Fault Refusal := stepInputs s

/-- `s` with the word of an opcode-table row about to be written to CMD by the host: the block fetches no instructions
(20 R74), a command comes to run by a host write alone (log entry 12). -/
def State.withFetchWord (s : State) (nbits w : Nat) : State :=
  { s with inputs := commandCycle (BitVec.ofNat 32 (w % 2 ^ nbits)) :: s.inputs }

end Sys2Proof.Machine
end

