-- ==== Sys2Proof/Machine/HostScript.lean ====
section
/-! DEFINITION. The host agent's programs in the spec's host-script notation (30 R93, R94): statements, their encodings as
accesses, the pseudo-statements, and a step of a script over the block. The script is the host's, not the block's (10 R43):
it stands outside `State`. -/

namespace Sys2Proof.Machine

/-- A statement of a host script; a label is the index of the statement it names (30 R93). -/
inductive Stmt where
  /-- `W REG, v` -/
  | write (r : Reg) (v : Word)
  /-- `R REG -> name` -/
  | read (r : Reg) (name : String)
  /-- `BNZ name[bit], target` -/
  | bnz (name : String) (bit : Nat) (target : Nat)
  /-- `HALT` -/
  | halt
  /-- `env TX n` -/
  | envTx (n : Nat)
  /-- `env RX b0 b1 ...` -/
  | envRx (bs : List Byte)
  /-- `env TICK n` -/
  | envTick (n : Nat)
  /-- `env LINKERR` -/
  | envLinkErr
  /-- `env RESET` -/
  | envReset
  deriving DecidableEq, Repr

/-- The host's access for a statement: one 32-bit access each for `W` and `R`, none for the others (30 R93). -/
def Stmt.access : Stmt → Option Access
  | .write r v => some { kind := .write v, width := .word, offset := r.offset }
  | .read r _ => some { kind := .read, width := .word, offset := r.offset }
  | .bnz _ _ _ => none
  | .halt => none
  | .envTx _ => none
  | .envRx _ => none
  | .envTick _ => none
  | .envLinkErr => none
  | .envReset => none

/-- What a statement puts on the input ports, one signal a cycle (30 R93). -/
def Stmt.cycles : Stmt → List Cycle
  | .write r v => [{ host := (Stmt.write r v).access }]
  | .read r name => [{ host := (Stmt.read r name).access }]
  | .bnz _ _ _ => []
  | .halt => []
  | .envTx n => List.replicate n { txReady := true }
  | .envRx bs => bs.map fun b => { rx := some b }
  | .envTick n => List.replicate n { tick := true }
  | .envLinkErr => [{ linkErr := true }]
  | .envReset => [{ rst := true }]

/-- A script in execution: the next statement, the kept values (newest first), the block. -/
structure ScriptState where
  pc     : Nat
  kept   : List (String × Word)
  halted : Bool
  block  : State
  deriving DecidableEq, Repr

/-- `n` steps of the block, ending at the first fault or refusal. -/
def stepMany : Nat → State → Host.Outcome State Fault Refusal
  | 0, s => .next s
  | n + 1, s =>
    match step s with
    | .next t => stepMany n t
    | .fault r => .fault r
    | .refused r => .refused r

/-- The ports carry `cs` in front of what they held, and the block takes all of it: a cycle with one signal is an event and
an empty cycle (log entries 2 and 19). -/
def feed (cs : List Cycle) (s : State) : Host.Outcome State Fault Refusal :=
  stepMany (2 * cs.length) { s with inputs := cs ++ s.inputs }

/-- The value a script keeps after a statement: `R` keeps what the bus answered (30 R93). -/
def keepRead (st : Stmt) (resp : BusResp) (kept : List (String × Word)) : List (String × Word) :=
  match st, resp with
  | .read _ name, .data w => (name, w) :: kept
  | _, _ => kept

/-- One statement of a host script (30 R93). DESIGN CHOICE (log entry 19; safe, no step of the machine uses it), where
R93 is silent: a script that runs or branches past its last statement without HALT halts there, a halted script stays as
it is, a branch on a value never kept is refused, and a bit of a kept value past bit 31 is 0. -/
def hostScriptStep (prog : List Stmt) (h : ScriptState) : Host.Outcome ScriptState Fault Refusal :=
  if h.halted then .next h else
  match prog[h.pc]? with
  | none => .next { h with halted := true }
  | some .halt => .next { h with halted := true }
  | some (.bnz name bit target) =>
    match h.kept.lookup name with
    | none => .refused (.unkeptName name)
    | some w => .next { h with pc := if w.getLsbD bit then target else h.pc + 1 }
  | some st =>
    match feed st.cycles h.block with
    | .next t => .next { h with pc := h.pc + 1, kept := keepRead st t.busResp h.kept, block := t }
    | .fault r => .fault r
    | .refused r => .refused r

/-- `TONE`, `SWEEP`, `STOP`, `STOP_NOACK`: a write of the command's word to CMD (30 R94). -/
def commandStmt (i : Instr) : Stmt := .write .cmd (encode i)

/-- `W64 F0, v` (30 R94). -/
def w64F0 (v : BitVec 64) : List Stmt := [.write .f0Lo (v.extractLsb' 0 32), .write .f0Hi (v.extractLsb' 32 32)]

/-- `W64 F1, v` (30 R94). -/
def w64F1 (v : BitVec 64) : List Stmt := [.write .f1Lo (v.extractLsb' 0 32), .write .f1Hi (v.extractLsb' 32 32)]

/-- `WAITIDLE`, standing at statement `pos` of its script: poll STATUS until BUSY is 0 (30 R94, 70 R225). -/
def waitIdle (pos : Nat) (name : String) : List Stmt := [.read .status name, .bnz name 0 pos]

/-- `ACKCLR`: clear DONE, OVERRUN and RXDISC (30 R94). -/
def ackClr : Stmt := .write .status 0x00030010

end Sys2Proof.Machine
end

