-- ==== Sys2Proof/Safety.lean ====
section
/-! DEFINITION. What every state a run reaches looks like, in the terms claims use: the engine's bookkeeping, the frame it
holds, the bytes on the link, and what a completed command's record says. -/

namespace Sys2Proof.Machine

/-- The ticks after which the window expires: TIMEOUT = 0 behaves as 1 (42 R173). -/
def windowTicks (e : Engine) : Nat := max e.tlimit.toNat 1

/-- The counts stay in the ranges of 10 R40 and no counter has wrapped (42 R179); ERR is a code of 60 R191. -/
abbrev Engine.CountsOk (e : Engine) : Prop :=
  e.flen ∈ [0, 4, 11, 18] ∧ e.txcount ≤ e.flen ∧ e.ackcnt ≤ params.ackLen ∧
    e.tcount.toNat ≤ windowTicks e ∧ e.err.toNat ≤ 5

/-- The buffers are zero past their counts (40 R127, 10 R37). -/
abbrev Engine.BuffersOk (e : Engine) : Prop :=
  (∀ i : Fin 18, e.flen ≤ i.val → e.frame[i] = 0) ∧ (∀ j : Fin 3, e.ackcnt ≤ j.val → e.ack[j] = 0)

/-- A frame in the buffer is laid out as 30 R85 and R90 say and ends in its checksum (40 R123). -/
abbrev Engine.FrameOk (e : Engine) : Prop :=
  e.flen ≠ 0 →
    frameByte e 0 = params.startSymbol ∧ deviceLegal params (frameByte e 1) = true ∧
      frameLength params (frameByte e 2) = some e.flen ∧
      frameByte e (e.flen - 1) = sum8 (e.frame.toList.take (e.flen - 1))

/-- While a command is in progress it has no completion yet, and the counts fit the sequencer state (42 R160, R165). -/
abbrev Engine.ProgressOk (e : Engine) : Prop :=
  (e.st = .send → e.txcount < e.flen ∧ e.ackcnt = 0 ∧ e.tcount = 0 ∧ e.done = false ∧ e.err = 0) ∧
  (e.st = .waitAck → e.expectAck = true ∧ e.txcount = e.flen ∧ e.flen ≠ 0 ∧ e.ackcnt < params.ackLen ∧
    e.tcount.toNat < windowTicks e ∧ e.done = false ∧ e.err = 0)

/-- A command that expects no acknowledgement has no window: nothing is collected, no tick counted (41 R144). -/
abbrev Engine.NoWindowOk (e : Engine) : Prop := e.expectAck = false → e.ackcnt = 0 ∧ e.tcount = 0

/-- OK is recorded only with the whole frame sent and, where an acknowledgement is expected, AD 66 13 received (60 R191,
42 R170, R163). -/
abbrev Engine.OkRecord (e : Engine) : Prop :=
  e.done = true ∧ e.err = ErrorCode.ok.code → e.flen ≠ 0 ∧ e.txcount = e.flen ∧
    (e.expectAck = true → e.ackcnt = params.ackLen ∧ ackVerdict e = .ok)

/-- ERR_CMD and ERR_PARAM leave nothing sent and nothing in the buffers (60 R193, R194). -/
abbrev Engine.RejectRecord (e : Engine) : Prop :=
  e.err = ErrorCode.cmd.code ∨ e.err = ErrorCode.param.code →
    e.flen = 0 ∧ e.txcount = 0 ∧ e.ackcnt = 0 ∧ e.expectAck = false

/-- ERR_TIMEOUT: the full frame sent, fewer than three bytes received, TCOUNT = max(tlimit, 1) (60 R195). -/
abbrev Engine.TimeoutRecord (e : Engine) : Prop :=
  e.err = ErrorCode.timeout.code →
    e.expectAck = true ∧ e.flen ≠ 0 ∧ e.txcount = e.flen ∧ e.ackcnt < params.ackLen ∧ e.tcount.toNat = windowTicks e

/-- ERR_IO: a command had started, and its acknowledgement was not complete (60 R196). -/
abbrev Engine.IoRecord (e : Engine) : Prop :=
  e.err = ErrorCode.io.code → e.flen ≠ 0 ∧ e.ackcnt < params.ackLen

/-- ERR_BADACK: the full frame sent, three bytes received, not AD 66 13 (60 R197). -/
abbrev Engine.BadAckRecord (e : Engine) : Prop :=
  e.err = ErrorCode.badAck.code →
    e.expectAck = true ∧ e.flen ≠ 0 ∧ e.txcount = e.flen ∧ e.ackcnt = params.ackLen ∧ ackVerdict e = .badAck

/-- What the record of the last completed command says, for each code (60 R191, R193 to R197). -/
abbrev Engine.RecordOk (e : Engine) : Prop :=
  e.OkRecord ∧ e.RejectRecord ∧ e.TimeoutRecord ∧ e.IoRecord ∧ e.BadAckRecord

/-- Everything above about the engine. -/
abbrev Engine.Inv (e : Engine) : Prop :=
  e.CountsOk ∧ e.BuffersOk ∧ e.FrameOk ∧ e.ProgressOk ∧ e.NoWindowOk ∧ e.RecordOk

/-- The bytes of the frame that the sink has taken are the last ones on the TX stream, in index order, each once
(20 R68, 42 R162). -/
abbrev State.StreamOk (s : State) : Prop := s.eng.frame.toList.take s.eng.txcount <:+ s.txOut

/-- The invariant of the machine. -/
abbrev State.Inv (s : State) : Prop := s.eng.Inv ∧ s.StreamOk

/-- DEVTYPE is neither of the two device types (40 R119). -/
abbrev DeviceError (r : Regs) : Prop := r.devtype ≠ params.devChipA ∧ r.devtype ≠ params.devChipB

/-- A scaled field is above FIELD_MAX (40 R115). -/
abbrev FieldError (v : Nat) : Prop := params.fieldMax < v

/-- A parameter error of a command (60 R194), read off the registers the command looks at: Tone reads neither F1 nor STEP,
Stop reads the device type only (40 R124). -/
def ParamError : Instr → Regs → Prop
  | .tone, r => DeviceError r ∨ FieldError (refclkField params r) ∨ FieldError (freqField params r.f0)
  | .sweep, r => DeviceError r ∨ FieldError (refclkField params r) ∨ FieldError (freqField params r.f0) ∨
      FieldError (freqField params r.f1) ∨ stepField r = 0 ∨ FieldError (stepField r)
  | .stop, r => DeviceError r
  | .stopNoack, r => DeviceError r
  | .illegal _, _ => False

end Sys2Proof.Machine
end

