-- ==== Sys2Proof/WellFormed.lean ====
section
/-! DEFINITION. The side condition of the command syntax: ILLEGAL carries none of the four legal words (30 R84). -/

namespace Sys2Proof

/-- The four legal command words (30 R82), built from the opcodes of 00 R6. -/
def legalWords : List Word := [toneWord, sweepWord, stopWord, stopNoackWord]

/-- A command is well formed unless it is ILLEGAL with a word that 30 R82 makes legal (30 R84). -/
abbrev Instr.WellFormed : Instr → Prop
  | .tone => True
  | .sweep => True
  | .stop => True
  | .stopNoack => True
  | .illegal w => w ∉ legalWords

/-- The same check as a Bool, for a caller that computes. -/
def Instr.wellFormed : Instr → Bool
  | .tone => true
  | .sweep => true
  | .stop => true
  | .stopNoack => true
  | .illegal w => !legalWords.contains w

end Sys2Proof
end

