-- ==== Sys2Proof/Certificates/Slice0/Obligations.lean ====
section
/-! DEFINITION. The statements for the provers, from the numbered rules of spec/. Each docstring names the rule. -/

open Sys2Proof Sys2Proof.Machine

/-! Encodings -/

/-- 30 R82, R84 and 95 V-C1 to V-C8: sample words, the illegal ones among them. -/
def Obligations.SampleCommandWordsDecode : Prop :=
  decode 0x00000001 = .tone ∧ decode 0x00000002 = .sweep ∧ decode 0x000000FF = .stop ∧
    decode 0x000001FF = .stopNoack ∧ decode 0x00000000 = .illegal 0x00000000 ∧
    decode 0x00000101 = .illegal 0x00000101 ∧ decode 0x00000102 = .illegal 0x00000102 ∧
    decode 0x000002FF = .illegal 0x000002FF ∧ decode 0x800000FF = .illegal 0x800000FF

/-- Decode and encode agree in both directions (30 R82, R83). -/
def Obligations.CommandWordRoundTrip : Prop :=
  (∀ i : Instr, i.WellFormed → decode (encode i) = i) ∧
    ∀ w : Word, (decode w).WellFormed ∧ encode (decode w) = w

/-- 30 R81 with R82: the fields of the legal words. A word is legal exactly if RSVD is 0, OP is one of the three wire
opcodes, and NOACK is set with Stop only. -/
def Obligations.LegalWordsHaveTheCmdLayout : Prop :=
  ∀ w : Word,
    (∀ v, decode w ≠ .illegal v) ↔
      (w.extractLsb' 9 23 = 0 ∧
        (w.extractLsb' 0 8 = 0x01 ∨ w.extractLsb' 0 8 = 0x02 ∨ w.extractLsb' 0 8 = 0xFF) ∧
        (w.getLsbD 8 = true → w.extractLsb' 0 8 = 0xFF))

/-! Numeric fields -/

/-- 40 R111: `rnd` gives the nearest integer; an exact half goes to the even neighbour, or up under HALF_UP; the block's
parameter is HALF_EVEN. -/
def Obligations.RndIsNearestWithTiesByParameter : Prop :=
  params.roundTies = .halfEven ∧
    ∀ (ties : RoundTies) (n d : Nat), d = 100 ∨ d = 1000 →
      2 * (d * rnd ties n d) ≤ 2 * n + d ∧ 2 * n ≤ 2 * (d * rnd ties n d) + d ∧
        (2 * (n % d) = d →
          match ties with
          | .halfEven => rnd ties n d % 2 = 0
          | .halfUp => rnd ties n d = n / d + 1)

/-- 40 R112, R113: the largest inputs whose fields fit. -/
def Obligations.ScaledFieldLimits : Prop :=
  (∀ r : Regs, fits params (refclkField params r) = true ↔ r.refclk.toNat ≤ 1677721549) ∧
    ∀ hz : Nat, fits params (freqField params hz) = true ↔ hz ≤ 16777215499

/-- 40 R120: three bytes, most significant first. -/
def Obligations.Be3IsBigEndian : Prop :=
  ∀ v : Nat, v ≤ 16777215 →
    ∃ b2 b1 b0 : Byte, be3 v = [b2, b1, b0] ∧ b2.toNat = v / 65536 ∧ b1.toNat = v / 256 % 256 ∧
      b0.toNat = v % 256 ∧ fromBe3 b2 b1 b0 = v

/-- 40 R121: the sum mod 256, and equivalently an 8-bit accumulator that discards carries. -/
def Obligations.Sum8IsTheByteSum : Prop :=
  ∀ s : List Byte, (sum8 s).toNat = (s.map BitVec.toNat).sum % 256 ∧ sum8 s = s.foldl (· + ·) 0

/-! Frames -/

/-- 40 R123: the last byte of every frame is the checksum of the bytes before it. -/
def Obligations.FrameEndsInItsChecksum : Prop :=
  ∀ (c : Command) (r : Regs) (bytes : List Byte), encodeFrame params c r = .ok bytes →
    bytes.getLast? = some (sum8 bytes.dropLast)

/-- 40 R126 with 30 R85 and R90: lengths, the three bytes every frame starts with, and the opcode that tells the length. -/
def Obligations.FrameLengthsAndHeader : Prop :=
  ∀ (c : Command) (r : Regs) (bytes : List Byte), encodeFrame params c r = .ok bytes →
    bytes.length = (match c with | .tone => 11 | .sweep => 18 | .stop => 4 | .stopNoack => 4) ∧
      bytes[0]? = some (0xAD : Byte) ∧ bytes[1]? = some r.devtype ∧
      bytes[2]? = some (match c with | .tone => 0x01 | .sweep => 0x02 | .stop => 0xFF | .stopNoack => 0xFF : Byte) ∧
      frameLength params (bytes.getD 2 0) = some bytes.length

/-- 30 R86 to R88, R91: a receiver that reads an encoded frame finds every field that went in, at every value; F0 and F1
are the pairs of halves, the HI half times 2^32 (10 R34, R35). -/
def Obligations.EncodedFrameReadsBack : Prop :=
  ∀ (c : Command) (r : Regs) (bytes : List Byte), encodeFrame params c r = .ok bytes →
    let f0 := r.f0Hi.toNat * 2 ^ 32 + r.f0Lo.toNat
    let f1 := r.f1Hi.toNat * 2 ^ 32 + r.f1Lo.toNat
    parseFrame params bytes = some
      (match c with
       | .tone => .tone r.devtype (BitVec.ofNat 8 (4 - r.gain.toNat)) (rnd .halfEven r.refclk.toNat 100)
           (rnd .halfEven f0 1000)
       | .sweep => .sweep r.devtype (BitVec.ofNat 8 (4 - r.gain.toNat)) (rnd .halfEven r.refclk.toNat 100)
           (rnd .halfEven f0 1000) (rnd .halfEven f1 1000) r.step.toNat
       | .stop => .stop r.devtype
       | .stopNoack => .stop r.devtype)

/-- 40 R128: the field of an encoded frame, read back and multiplied, is the input within half a unit; F0 and F1 are the
pairs of halves (10 R34, R35). -/
def Obligations.ScaleLawOfEncodedFrames : Prop :=
  ∀ (s t : State), s.eng.st = .idle →
    (exec .tone s = .next t ∨ exec .sweep s = .next t) → t.eng.st = .send →
    let f0 := s.regs.f0Hi.toNat * 2 ^ 32 + s.regs.f0Lo.toNat
    let f1 := s.regs.f1Hi.toNat * 2 ^ 32 + s.regs.f1Lo.toNat
    let field := fun i => fromBe3 (frameByte t.eng i) (frameByte t.eng (i + 1)) (frameByte t.eng (i + 2))
    (field 4 * 100 = rnd .halfEven s.regs.refclk.toNat 100 * 100 ∧
        s.regs.refclk.toNat ≤ field 4 * 100 + 50 ∧ field 4 * 100 ≤ s.regs.refclk.toNat + 50) ∧
      (field 7 * 1000 = rnd .halfEven f0 1000 * 1000 ∧
        f0 ≤ field 7 * 1000 + 500 ∧ field 7 * 1000 ≤ f0 + 500) ∧
      (exec .sweep s = .next t → t.eng.cmdLast = 0x00000002 →
        field 10 * 1000 = rnd .halfEven f1 1000 * 1000 ∧
        f1 ≤ field 10 * 1000 + 500 ∧ field 10 * 1000 ≤ f1 + 500)

/-- 40 R124: a command's frame depends on no register the command does not read. -/
def Obligations.EncodeReadsOnlyItsOperands : Prop :=
  ∀ r q : Regs, r.devtype = q.devtype →
    encodeFrame params .stop r = encodeFrame params .stop q ∧
    encodeFrame params .stopNoack r = encodeFrame params .stop q ∧
    (r.gain = q.gain → r.refclk = q.refclk → r.f0Lo = q.f0Lo → r.f0Hi = q.f0Hi →
      encodeFrame params .tone r = encodeFrame params .tone q ∧
      (r.f1Lo = q.f1Lo → r.f1Hi = q.f1Hi → r.step = q.step → encodeFrame params .sweep r = encodeFrame params .sweep q))

/-! Commands -/

/-- 30 R86: TONE, idle and with legal parameters, latches the Tone frame and starts sending; nothing else changes. F0 is
the pair of halves, the HI half times 2^32 (10 R34, 20 R70). -/
def Obligations.ToneLatchesItsFrameAndSends : Prop :=
  ∀ s : State, s.eng.st = .idle → (s.regs.devtype = 1 ∨ s.regs.devtype = 2) →
    let f0 := s.regs.f0Hi.toNat * 2 ^ 32 + s.regs.f0Lo.toNat
    rnd .halfEven s.regs.refclk.toNat 100 ≤ 16777215 → rnd .halfEven f0 1000 ≤ 16777215 →
    let body : List Byte :=
      [0xAD, s.regs.devtype, 0x01, BitVec.ofNat 8 (4 - s.regs.gain.toNat)]
        ++ be3 (rnd .halfEven s.regs.refclk.toNat 100) ++ be3 (rnd .halfEven f0 1000)
    exec .tone s = .next { s with
      eng := { s.eng with
        cmdLast := 0x00000001, st := .send, expectAck := true
        frame := zeroFill (body ++ [sum8 body]), flen := 11, txcount := 0
        ack := Vector.replicate 3 0, ackcnt := 0, tcount := 0, tlimit := s.regs.timeout
        done := false, err := 0 } }

/-- 30 R87: SWEEP likewise, with the raw step and the sweep flag; F0 and F1 are the pairs of halves (10 R34, R35, 20 R70). -/
def Obligations.SweepLatchesItsFrameAndSends : Prop :=
  ∀ s : State, s.eng.st = .idle → (s.regs.devtype = 1 ∨ s.regs.devtype = 2) →
    let f0 := s.regs.f0Hi.toNat * 2 ^ 32 + s.regs.f0Lo.toNat
    let f1 := s.regs.f1Hi.toNat * 2 ^ 32 + s.regs.f1Lo.toNat
    rnd .halfEven s.regs.refclk.toNat 100 ≤ 16777215 → rnd .halfEven f0 1000 ≤ 16777215 →
    rnd .halfEven f1 1000 ≤ 16777215 → 1 ≤ s.regs.step.toNat → s.regs.step.toNat ≤ 16777215 →
    let body : List Byte :=
      [0xAD, s.regs.devtype, 0x02, BitVec.ofNat 8 (4 - s.regs.gain.toNat)]
        ++ be3 (rnd .halfEven s.regs.refclk.toNat 100) ++ be3 (rnd .halfEven f0 1000)
        ++ be3 (rnd .halfEven f1 1000) ++ be3 s.regs.step.toNat ++ [0x01]
    exec .sweep s = .next { s with
      eng := { s.eng with
        cmdLast := 0x00000002, st := .send, expectAck := true
        frame := zeroFill (body ++ [sum8 body]), flen := 18, txcount := 0
        ack := Vector.replicate 3 0, ackcnt := 0, tcount := 0, tlimit := s.regs.timeout
        done := false, err := 0 } }

/-- 30 R88: STOP and STOP_NOACK latch the same four bytes; they differ in the word recorded and in EXPECT_ACK. -/
def Obligations.StopAndStopNoackLatchTheSameFrame : Prop :=
  ∀ s : State, s.eng.st = .idle → (s.regs.devtype = 1 ∨ s.regs.devtype = 2) →
    let started : Word → Bool → State := fun w x => { s with
      eng := { s.eng with
        cmdLast := w, st := .send, expectAck := x
        frame := zeroFill [0xAD, s.regs.devtype, 0xFF, 0xAD + s.regs.devtype + 0xFF], flen := 4, txcount := 0
        ack := Vector.replicate 3 0, ackcnt := 0, tcount := 0, tlimit := s.regs.timeout
        done := false, err := 0 } }
    exec .stop s = .next (started 0x000000FF true) ∧ exec .stopNoack s = .next (started 0x000001FF false)

/-- 60 R193: a word outside the table ends at once with ERR_CMD, whatever the parameters; the observation registers read
as the rule says. -/
def Obligations.IllegalWordCompletesWithErrCmd : Prop :=
  ∀ (s : State) (w : Word), s.eng.st = .idle → w ∉ [0x00000001, 0x00000002, 0x000000FF, 0x000001FF] →
    ∃ t, exec (.illegal w) s = .next t ∧ decode w = .illegal w ∧
      t = { s with
        eng := { s.eng with
          cmdLast := w, st := .idle, expectAck := false, frame := Vector.replicate 18 0, flen := 0, txcount := 0
          ack := Vector.replicate 3 0, ackcnt := 0, tcount := 0, done := true, err := 1 } } ∧
      readReg .cmd t = w ∧ readReg .frameinfo t = 0 ∧ readReg .ackdata t = 0 ∧ readReg .framebuf0 t = 0 ∧
      readReg .framebuf1 t = 0 ∧ readReg .framebuf2 t = 0 ∧ readReg .framebuf3 t = 0 ∧ readReg .framebuf4 t = 0

/-- 60 R194: which registers make a parameter error, in numbers, F0 and F1 being the pairs of halves (10 R34, R35); and that
one ends a GO at once with ERR_PARAM, in the same state whichever check failed. -/
def Obligations.ParameterErrorCompletesWithErrParam : Prop :=
  ∀ (i : Instr) (s : State),
    let f0 := s.regs.f0Hi.toNat * 2 ^ 32 + s.regs.f0Lo.toNat
    let f1 := s.regs.f1Hi.toNat * 2 ^ 32 + s.regs.f1Lo.toNat
    let badDevice := s.regs.devtype ≠ 1 ∧ s.regs.devtype ≠ 2
    let badTone := badDevice ∨ 16777215 < rnd .halfEven s.regs.refclk.toNat 100 ∨ 16777215 < rnd .halfEven f0 1000
    (ParamError i s.regs ↔
      (match i with
       | .tone => badTone
       | .sweep => badTone ∨ 16777215 < rnd .halfEven f1 1000 ∨ s.regs.step = 0 ∨ 16777215 < s.regs.step.toNat
       | .stop => badDevice
       | .stopNoack => badDevice
       | .illegal _ => False)) ∧
    (s.eng.st = .idle → ParamError i s.regs →
      exec i s = .next { s with
        eng := { s.eng with
          cmdLast := encode i, st := .idle, expectAck := false, frame := Vector.replicate 18 0, flen := 0, txcount := 0
          ack := Vector.replicate 3 0, ackcnt := 0, tcount := 0, done := true, err := 2 } })

/-- 41 R146: a command written while busy only sets OVERRUN. -/
def Obligations.BusyCommandOnlyOverruns : Prop :=
  ∀ (i : Instr) (s : State), s.eng.st ≠ .idle →
    exec i s = .next { s with eng := { s.eng with overrun := true } }

/-- 41 R140, 60 R199: every GO answers in its own event, either sending with nothing recorded, or completed with ERR_CMD
for an illegal word and ERR_PARAM for a parameter error, never both. -/
def Obligations.EveryGoStartsOrRejects : Prop :=
  ∀ (i : Instr) (s : State), s.eng.st = .idle →
    ∃ t, exec i s = .next t ∧
      ((t.eng.st = .send ∧ t.eng.done = false ∧ t.eng.err = 0 ∧ t.eng.txcount = 0 ∧ ¬ ParamError i s.regs ∧
          ∀ w, i ≠ .illegal w) ∨
       (t.eng.st = .idle ∧ t.eng.done = true ∧ t.eng.flen = 0 ∧
          ((t.eng.err = 1 ∧ ∃ w, i = .illegal w) ∨ (t.eng.err = 2 ∧ ParamError i s.regs))))

/-- The frame of the five commands (41 R140, R146): no parameter register, no port and no byte on the link changes, and
OVERRUN and RXDISC keep their values but for OVERRUN of a busy write. -/
def Obligations.CommandsKeepEverythingElse : Prop :=
  ∀ (i : Instr) (s t : State), exec i s = .next t →
    t.regs = s.regs ∧ t.inputs = s.inputs ∧ t.txOut = s.txOut ∧ t.busResp = s.busResp ∧
      t.eng.rxdisc = s.eng.rxdisc ∧
      (s.eng.st = .idle → t.eng.overrun = s.eng.overrun ∧ t.eng.cmdLast = encode i) ∧
      (s.eng.st ≠ .idle → t.eng = { s.eng with overrun := t.eng.overrun }) ∧
      (t.eng.tlimit = s.eng.tlimit ∨ (s.eng.st = .idle ∧ t.eng.tlimit = s.regs.timeout))

/-! Register window -/

/-- 10 R22: the fields of STATUS and its reserved bits. -/
def Obligations.StatusReadsItsFields : Prop :=
  ∀ s : State,
    let w := readReg .status s
    w.getLsbD 0 = decide (s.eng.st ≠ .idle) ∧
      w.extractLsb' 1 2 = (match s.eng.st with | .idle => 0 | .send => 1 | .waitAck => 2) ∧
      w.getLsbD 3 = s.eng.expectAck ∧ w.getLsbD 4 = s.eng.done ∧ w.extractLsb' 5 3 = 0 ∧
      w.extractLsb' 8 4 = s.eng.err ∧ w.extractLsb' 12 4 = 0 ∧ w.getLsbD 16 = s.eng.overrun ∧
      w.getLsbD 17 = s.eng.rxdisc ∧ w.extractLsb' 18 14 = 0

/-- 10 R29: a write to STATUS clears what it names and nothing else; a write of 0 changes nothing. -/
def Obligations.StatusWriteClearsWhatItNames : Prop :=
  ∀ (s : State) (w : Word),
    hostAccess ⟨.write w, .word, 0x04⟩ s = .next { s with
      busResp := .okay
      eng := { s.eng with
        done := if w.getLsbD 4 = true then false else s.eng.done
        overrun := if w.getLsbD 16 = true then false else s.eng.overrun
        rxdisc := if w.getLsbD 17 = true then false else s.eng.rxdisc } } ∧
    hostAccess ⟨.write 0, .word, 0x04⟩ s = .next { s with busResp := .okay }

/-- 20 R64: a read of any register answers its value and changes no state, so a second read answers the same. -/
def Obligations.ReadsHaveNoSideEffect : Prop :=
  ∀ (r : Reg) (s : State),
    ∃ t, hostAccess ⟨.read, .word, r.offset⟩ s = .next t ∧ t = { s with busResp := .data (readReg r s) } ∧
      hostAccess ⟨.read, .word, r.offset⟩ t = .next t

/-- 10 R30 to R36, R42: each parameter register stores its defined bits, in any engine state, and no other state changes. -/
def Obligations.ParameterWritesStoreTheirBits : Prop :=
  ∀ (s : State) (w : Word),
    let wrote : Regs → Host.Outcome State Fault Refusal := fun p => .next { s with regs := p, busResp := .okay }
    hostAccess ⟨.write w, .word, 0x08⟩ s = wrote { s.regs with devtype := w.extractLsb' 0 8 } ∧
    hostAccess ⟨.write w, .word, 0x0C⟩ s = wrote { s.regs with gain := w.extractLsb' 0 2 } ∧
    hostAccess ⟨.write w, .word, 0x10⟩ s = wrote { s.regs with refclk := w } ∧
    hostAccess ⟨.write w, .word, 0x14⟩ s = wrote { s.regs with timeout := w } ∧
    hostAccess ⟨.write w, .word, 0x18⟩ s = wrote { s.regs with f0Lo := w } ∧
    hostAccess ⟨.write w, .word, 0x1C⟩ s = wrote { s.regs with f0Hi := w } ∧
    hostAccess ⟨.write w, .word, 0x20⟩ s = wrote { s.regs with f1Lo := w } ∧
    hostAccess ⟨.write w, .word, 0x24⟩ s = wrote { s.regs with f1Hi := w } ∧
    hostAccess ⟨.write w, .word, 0x28⟩ s = wrote { s.regs with step := w }

/-- 10 R30 to R36, R45: what a parameter register reads after a write, its reserved bits 0, and that a write to one
register changes what no other register of the window reads. -/
def Obligations.ParameterReadsBackItsDefinedBits : Prop :=
  ∀ (s t : State) (w : Word) (r : Reg), r ≠ .cmd → r ≠ .status → r.readOnly = false →
    hostAccess ⟨.write w, .word, r.offset⟩ s = .next t →
      (readReg r t).toNat =
        (match r with | .devtype => w.toNat % 256 | .gain => w.toNat % 4 | _ => w.toNat) ∧
      ∀ q : Reg, q ≠ r → readReg q t = readReg q s

/-- 20 R63, first sentence: a write to a read-only register answers OKAY and changes no state. -/
def Obligations.ReadOnlyWritesAreIgnored : Prop :=
  ∀ (s : State) (w : Word) (off : BitVec 7),
    off ∈ [(0x2C : BitVec 7), 0x30, 0x34, 0x40, 0x44, 0x48, 0x4C, 0x50] →
      hostAccess ⟨.write w, .word, off⟩ s = .next { s with busResp := .okay }

/-- 20 R61: another width or an offset that is not a multiple of 4 is an ERROR, a fault of the host in the model, and no
state changes; no data is returned. -/
def Obligations.NarrowOrMisalignedAccessFaults : Prop :=
  ∀ (a : Access) (s : State), a.width ≠ .word ∨ a.offset.toNat % 4 ≠ 0 →
    ∃ why, hostAccess a s = .fault (.hostError why { s with busResp := .error })

/-- 20 R62: a 32-bit aligned access to an offset without a register is an ERROR and changes no state. -/
def Obligations.UnmappedAccessFaults : Prop :=
  ∀ (k : AccessKind) (off : BitVec 7) (s : State), off.toNat % 4 = 0 →
    (off = 0x38 ∨ off = 0x3C ∨ 0x54 ≤ off.toNat) →
      hostAccess ⟨k, .word, off⟩ s = .fault (.hostError .unmapped { s with busResp := .error })

/-- 10 R37, R38: the fields of ACKDATA and FRAMEINFO, for counts in their ranges. -/
def Obligations.AckdataAndFrameinfoReadTheirFields : Prop :=
  ∀ s : State, s.eng.ackcnt ≤ 3 → s.eng.txcount ≤ 18 → s.eng.flen ≤ 18 →
    (∀ j : Fin 3, (readReg .ackdata s).extractLsb' (8 * j.val) 8 =
        if j.val < s.eng.ackcnt then s.eng.ack[j] else 0) ∧
      ((readReg .ackdata s).extractLsb' 24 2).toNat = s.eng.ackcnt ∧
      (readReg .ackdata s).extractLsb' 26 6 = 0 ∧
      (readReg .frameinfo s).toNat = s.eng.txcount * 256 + s.eng.flen

/-- 10 R41, 20 R69: FRAMEBUFk holds `frame[4k + j]` in byte lane j and reads 0 past FLEN and past the buffer. -/
def Obligations.FramebufPacksTheFrame : Prop :=
  ∀ (s : State) (j : Fin 4) (k : Fin 5),
    (readReg ([Reg.framebuf0, .framebuf1, .framebuf2, .framebuf3, .framebuf4][k]) s).extractLsb' (8 * j.val) 8 =
      if h : 4 * k.val + j.val < 18 then
        (if 4 * k.val + j.val < s.eng.flen then s.eng.frame[4 * k.val + j.val] else 0)
      else 0

/-- 10 R20, 20 R60: each of the 128 offsets has its own platform address, wherever BASE is, and only they reach the block. -/
def Obligations.WindowIs128BytesFromBase : Prop :=
  (∀ off : BitVec 7, windowOffset (busAddress off) = some off) ∧
    ∀ (addr : Nat) (off : BitVec 7), windowOffset addr = some off → addr = busAddress off

/-! Exchange -/

/-- 42 R162: in SEND a handshake sends `frame[txcount]` and counts it, whatever byte of the frame it is; before the last
byte nothing else changes; outside SEND there is no handshake, and the sink's readiness changes nothing. -/
def Obligations.TxHandshakeSendsTheNextByte : Prop :=
  ∀ s : State,
    (s.eng.st = .send → s.eng.txcount < s.eng.flen →
      ∃ t, performEvent .txAccept s = .next t ∧ t.eng.txcount = s.eng.txcount + 1 ∧
        t.txOut = s.txOut ++ [frameByte s.eng s.eng.txcount]) ∧
      (s.eng.st = .send → s.eng.txcount + 1 < s.eng.flen →
        performEvent .txAccept s = .next { s with
          eng := { s.eng with txcount := s.eng.txcount + 1 }
          txOut := s.txOut ++ [frameByte s.eng s.eng.txcount] }) ∧
      (s.eng.st ≠ .send → performEvent .txAccept s = .next s)

/-- 42 R163: the handshake of the checksum byte opens the window, or completes with OK where no acknowledgement is
expected, in the same event. -/
def Obligations.LastHandshakeOpensWindowOrCompletes : Prop :=
  ∀ s : State, s.eng.st = .send → s.eng.txcount + 1 = s.eng.flen →
    performEvent .txAccept s = .next { s with
      eng :=
        (if s.eng.expectAck = true then
          { s.eng with
            txcount := s.eng.flen, st := .waitAck, ackcnt := 0, ack := Vector.replicate 3 0, tcount := 0 }
        else { s.eng with txcount := s.eng.flen, st := .idle, done := true, err := 0 })
      txOut := s.txOut ++ [frameByte s.eng s.eng.txcount] }

/-- 42 R161: `tx_valid` is 1 exactly in SEND, with `frame[txcount]` on `tx_data`, which only a handshake, a completion or
reset can change. -/
def Obligations.TxPortHoldsItsByteUntilTaken : Prop :=
  ∀ s : State,
    (txValid s.eng = true ↔ s.eng.st = .send) ∧
      (s.eng.st = .send → txData s.eng = some (frameByte s.eng s.eng.txcount)) ∧
      ∀ t, step s = .next t → txValid s.eng = true → txValid t.eng = true → pendingEvent s ≠ some .txAccept →
        txData t.eng = txData s.eng

/-- 42 R167: a first or second byte in the window is stored and counted, nothing is compared. -/
def Obligations.EarlyAckBytesAreCollected : Prop :=
  ∀ (s : State) (b : Byte) (h : s.eng.ackcnt < 3), s.eng.st = .waitAck → s.eng.ackcnt + 1 < 3 →
    performEvent (.rxByte b) s = .next { s with
      eng := { s.eng with ack := s.eng.ack.set s.eng.ackcnt b h, ackcnt := s.eng.ackcnt + 1 } }

/-- 42 R170 with R169: the third byte completes the command, with OK for AD 66 13 and ERR_BADACK for anything else; the
bytes stay. -/
def Obligations.ThirdAckByteDecides : Prop :=
  ∀ (s : State) (b : Byte), s.eng.st = .waitAck → s.eng.ackcnt = 2 →
    performEvent (.rxByte b) s = .next { s with
      eng := { s.eng with
        ack := s.eng.ack.set 2 b, ackcnt := 3, st := .idle, done := true
        err := if s.eng.ack[0] = 0xAD ∧ s.eng.ack[1] = 0x66 ∧ b = 0x13 then 0 else 5 } }

/-- 42 R168: a byte outside every window is discarded and sets RXDISC alone. -/
def Obligations.ByteOutsideWindowIsDiscarded : Prop :=
  ∀ (s : State) (b : Byte), s.eng.st = .idle ∨ s.eng.st = .send →
    performEvent (.rxByte b) s = .next { s with eng := { s.eng with rxdisc := true } }

/-- 42 R171, R172, R173: a tick counts in the window only, and the one that reaches the limit ends the command with
ERR_TIMEOUT, the collected bytes kept and not decoded. -/
def Obligations.TickCountsInWindowOnly : Prop :=
  ∀ s : State,
    (s.eng.st ≠ .waitAck → performEvent .tick s = .next s) ∧
      (s.eng.st = .waitAck → s.eng.tcount.toNat + 1 < s.eng.tlimit.toNat →
        performEvent .tick s = .next { s with eng := { s.eng with tcount := s.eng.tcount + 1 } }) ∧
      (s.eng.st = .waitAck → s.eng.tlimit.toNat ≤ s.eng.tcount.toNat + 1 →
        performEvent .tick s = .next { s with
          eng := { s.eng with tcount := s.eng.tcount + 1, st := .idle, done := true, err := 3 } })

/-- 42 R174: a link error ends a command in progress with ERR_IO, counts and bytes kept; in IDLE it does nothing. -/
def Obligations.LinkErrorEndsTheCommand : Prop :=
  ∀ s : State,
    (s.eng.st = .send ∨ s.eng.st = .waitAck →
      performEvent .linkErr s = .next { s with eng := { s.eng with st := .idle, done := true, err := 4 } }) ∧
      (s.eng.st = .idle → performEvent .linkErr s = .next s)

/-- 42 R169: exactly one of the 2^24 inputs is an acknowledgement. -/
def Obligations.DecodeAckAcceptsExactlyOne : Prop :=
  ∀ a0 a1 a2 : Byte,
    (decodeAck params a0 a1 a2 = .ok ↔ a0 = 0xAD ∧ a1 = 0x66 ∧ a2 = 0x13) ∧
      (decodeAck params a0 a1 a2 = .ok ∨ decodeAck params a0 a1 a2 = .badAck)

/-- 42 R175: completion sets the state, DONE and ERR and changes nothing else; from it on `tx_valid` is 0. -/
def Obligations.CompleteChangesThreeFields : Prop :=
  ∀ (c : ErrorCode) (e : Engine),
    complete c e = { e with
      st := .idle, done := true
      err := (match c with | .ok => 0 | .cmd => 1 | .param => 2 | .timeout => 3 | .io => 4 | .badAck => 5) } ∧
    txValid (complete c e) = false

/-- 70 R220 with 10 R46: the Reset event, from any state, gives every register and engine item its reset value, and a
byte not yet accepted is never sent by it. That the model's own port records `txOut`, `inputs` and `busResp` keep their
values is the model's choice (log entries 5, 1 with 3, and 6). -/
def Obligations.ResetEventSetsEveryItem : Prop :=
  ∀ s : State, ∃ t, performEvent .reset s = .next t ∧ t.txOut = s.txOut ∧ t.inputs = s.inputs ∧
    t.busResp = s.busResp ∧
    t.regs = { devtype := 0x00, gain := 0, refclk := 0, timeout := 0x000F4240, f0Lo := 0, f0Hi := 0, f1Lo := 0,
               f1Hi := 0, step := 0 } ∧
    t.eng = { cmdLast := 0, st := .idle, expectAck := false, frame := Vector.replicate 18 0, flen := 0, txcount := 0,
              ack := Vector.replicate 3 0, ackcnt := 0, tcount := 0, tlimit := 0, done := false, err := 0,
              overrun := false, rxdisc := false } ∧
    txValid t.eng = false

/-- 10 R46: what the machine is right after reset, every register, every engine item (the buffers' bytes themselves
included), and what the window reads. Nothing is said of the model's own ports (log entries 1, 5, 6). -/
def Obligations.ResetValues : Prop :=
  State.reset.regs = { devtype := 0x00, gain := 0, refclk := 0, timeout := 1000000, f0Lo := 0, f0Hi := 0, f1Lo := 0,
                       f1Hi := 0, step := 0 } ∧
    (∀ i : Fin 18, State.reset.eng.frame[i] = 0) ∧ (∀ j : Fin 3, State.reset.eng.ack[j] = 0) ∧
    State.reset.eng = { cmdLast := 0, st := .idle, expectAck := false, frame := Vector.replicate 18 0, flen := 0,
                        txcount := 0, ack := Vector.replicate 3 0, ackcnt := 0, tcount := 0, tlimit := 0, done := false,
                        err := 0, overrun := false, rxdisc := false } ∧
    readReg .cmd State.reset = 0 ∧ readReg .status State.reset = 0 ∧ readReg .ackdata State.reset = 0 ∧
    readReg .frameinfo State.reset = 0 ∧ readReg .tcount State.reset = 0 ∧ State.reset.eng.tlimit = 0 ∧
    readReg .framebuf0 State.reset = 0 ∧ readReg .framebuf1 State.reset = 0 ∧ readReg .framebuf2 State.reset = 0 ∧
    readReg .framebuf3 State.reset = 0 ∧ readReg .framebuf4 State.reset = 0 ∧ txValid State.reset.eng = false

/-! Flags and errors -/

/-- 60 R191, R192: the numbers of the codes, their classes, and that no two codes share a number. -/
def Obligations.ErrorCodesAndClasses : Prop :=
  (∀ c : ErrorCode,
      (c.code.toNat, c.errorClass) =
        (match c with
         | .ok => (0, none)
         | .cmd => (1, some .invalidParameter)
         | .param => (2, some .invalidParameter)
         | .timeout => (3, some .communication)
         | .io => (4, some .communication)
         | .badAck => (5, some .unexpectedResponse))) ∧
    ∀ c d : ErrorCode, c.code = d.code → c = d

/-- 10 R24: DONE rises only by a completion and falls only by a GO, a STATUS write with bit 4, or reset. -/
def Obligations.DoneChangesOnlyByItsRule : Prop :=
  ∀ s t : State, step s = .next t →
    (s.eng.done = false → t.eng.done = true →
      t.eng.st = .idle ∧ (s.eng.st ≠ .idle ∨ ∃ w, pendingEvent s = some (.host ⟨.write w, .word, 0x00⟩))) ∧
      (s.eng.done = true → t.eng.done = false →
        pendingEvent s = some .reset ∨
          (s.eng.st = .idle ∧ ∃ w, pendingEvent s = some (.host ⟨.write w, .word, 0x00⟩)) ∨
          ∃ w : Word, w.getLsbD 4 = true ∧ pendingEvent s = some (.host ⟨.write w, .word, 0x04⟩))

/-- 10 R25: ERR changes only by reset, a GO or the completion of a command in progress; a GO leaves it 0 while it sends
and at the code of its rejection otherwise, whatever it was; no other host access changes it, a CMD write while busy and a
read of CMD included. -/
def Obligations.ErrChangesOnlyByItsRule : Prop :=
  ∀ s t : State, step s = .next t →
    (t.eng.err ≠ s.eng.err →
      (pendingEvent s = some .reset ∧ t.eng.err = 0) ∨
        (s.eng.st = .idle ∧ ∃ w, pendingEvent s = some (.host ⟨.write w, .word, 0x00⟩)) ∨
        (s.eng.st ≠ .idle ∧ t.eng.st = .idle ∧ t.eng.done = true ∧
          (t.eng.err = 0 ∨ t.eng.err = 3 ∨ t.eng.err = 4 ∨ t.eng.err = 5))) ∧
      (∀ w, s.eng.st = .idle → pendingEvent s = some (.host ⟨.write w, .word, 0x00⟩) →
        (t.eng.st = .send ∧ t.eng.err = 0) ∨
          (t.eng.st = .idle ∧ t.eng.done = true ∧ (t.eng.err = 1 ∨ t.eng.err = 2))) ∧
      ∀ a, pendingEvent s = some (.host a) → (s.eng.st ≠ .idle ∨ ∀ w, a ≠ ⟨.write w, .word, 0x00⟩) →
        t.eng.err = s.eng.err

/-- 10 R26: OVERRUN rises by a CMD write while busy alone, and falls by a STATUS write with bit 16 or reset alone. -/
def Obligations.OverrunChangesOnlyByItsRule : Prop :=
  ∀ s t : State, step s = .next t →
    (s.eng.overrun = false → t.eng.overrun = true →
      s.eng.st ≠ .idle ∧ ∃ w, pendingEvent s = some (.host ⟨.write w, .word, 0x00⟩)) ∧
      (s.eng.overrun = true → t.eng.overrun = false →
        pendingEvent s = some .reset ∨
          ∃ w : Word, w.getLsbD 16 = true ∧ pendingEvent s = some (.host ⟨.write w, .word, 0x04⟩))

/-- 10 R27: RXDISC rises by a byte outside the window alone, and falls by a STATUS write with bit 17 or reset alone. -/
def Obligations.RxdiscChangesOnlyByItsRule : Prop :=
  ∀ s t : State, step s = .next t →
    (s.eng.rxdisc = false → t.eng.rxdisc = true →
      s.eng.st ≠ .waitAck ∧ ∃ b, pendingEvent s = some (.rxByte b)) ∧
      (s.eng.rxdisc = true → t.eng.rxdisc = false →
        pendingEvent s = some .reset ∨
          ∃ w : Word, w.getLsbD 17 = true ∧ pendingEvent s = some (.host ⟨.write w, .word, 0x04⟩))

/-! The machine's step -/

/-- A step in which the host writes CMD is `exec` of the decoded word, with the write taken off the ports and answered
OKAY around it (20 R66, R74, 10 R21; the ports as a list of cycles are log entry 1). -/
def Obligations.StepRunsTheDecodedCommand : Prop :=
  ∀ (s : State) (c : Cycle) (cs : List Cycle) (w : Word), s.inputs = c :: cs → c.rst = false →
    c.host = some ⟨.write w, .word, 0x00⟩ →
      step s = exec (decode w) { s with inputs := { c with host := none } :: cs, busResp := .okay }

/-- 20 R66: coincident signals are processed in the fixed order Reset, host access, LinkErr, TxAccept, RxByte, Tick, one
event a step, and each is processed once. The spec gives the order; that a cycle's signals are taken one a step, and that a
cycle which carries Reset keeps its other signals and still processes them, is the model's choice (log entry 3, DEDUCED). -/
def Obligations.CoincidentSignalsGoInOrder : Prop :=
  ∀ c : Cycle,
    nextEvent c =
      (if c.rst = true then some (.reset, { c with rst := false })
       else if c.host ≠ none then (c.host.map fun a => (.host a, { c with host := none }))
       else if c.linkErr = true then some (.linkErr, { c with linkErr := false })
       else if c.txReady = true then some (.txAccept, { c with txReady := false })
       else if c.rx ≠ none then (c.rx.map fun b => (.rxByte b, { c with rx := none }))
       else if c.tick = true then some (.tick, { c with tick := false })
       else none)

/-- 60 R200: a third acknowledgement byte beats a tick in the same cycle: the byte decides, and the tick, even one that
would have expired the window, finds the engine idle. That the cycle takes two steps is the model's (log entry 3). -/
def Obligations.ThirdAckByteBeatsTheTick : Prop :=
  ∀ (s : State) (b : Byte) (cs : List Cycle), s.eng.st = .waitAck → s.eng.ackcnt = 2 →
    s.inputs = { rx := some b, tick := true } :: cs →
      ∃ t, Host.Core.run core 2 s = .next t ∧ t.eng.st = .idle ∧ t.eng.done = true ∧ t.eng.tcount = s.eng.tcount ∧
        t.eng.err = (if s.eng.ack[0] = 0xAD ∧ s.eng.ack[1] = 0x66 ∧ b = 0x13 then 0 else 5)

/-- The invariant holds at reset. -/
def Obligations.ResetMeetsTheInvariant : Prop := State.reset.Inv

/-- Every step keeps the invariant (40 R123, R127, 20 R68, 42 R179, 60 R191 to R197), and so does the machine a refused
host access leaves. -/
def Obligations.EveryStepKeepsTheInvariant : Prop :=
  ∀ s t : State, s.Inv → (step s = .next t ∨ ∃ why, step s = .fault (.hostError why t)) → t.Inv

/-- 20 R61, R62: a refused access leaves registers, engine and TX stream as they were. -/
def Obligations.FaultsChangeNothing : Prop :=
  ∀ (s t : State) (why : BusError), step s = .fault (.hostError why t) →
    t.regs = s.regs ∧ t.eng = s.eng ∧ t.txOut = s.txOut ∧ t.busResp = .error

/-- 42 R178: a command in progress ends in one completion with one of four codes, or by reset. -/
def Obligations.BusyEndsInOneCompletion : Prop :=
  ∀ s t : State, s.eng.st ≠ .idle → step s = .next t → t.eng.st = .idle →
    (pendingEvent s = some .reset ∧ t.eng = Engine.reset ∧ t.regs = Regs.reset) ∨
      (t.eng.done = true ∧ (t.eng.err = 0 ∨ t.eng.err = 3 ∨ t.eng.err = 4 ∨ t.eng.err = 5) ∧
        t.eng.frame = s.eng.frame ∧ t.eng.flen = s.eng.flen ∧ t.eng.expectAck = s.eng.expectAck)

/-- 10 R42, 20 R74: what a command sampled at its GO is not changed by any later step while it is in progress. -/
def Obligations.AcceptedCommandIsImmutable : Prop :=
  ∀ s t : State, s.eng.st ≠ .idle → step s = .next t → pendingEvent s ≠ some .reset →
    t.eng.frame = s.eng.frame ∧ t.eng.flen = s.eng.flen ∧ t.eng.tlimit = s.eng.tlimit ∧
      t.eng.expectAck = s.eng.expectAck ∧ t.eng.cmdLast = s.eng.cmdLast

/-- 42 R164: a sink that never accepts hangs the block in SEND: without a handshake, a link error or reset on the ports,
no number of steps ends SEND or sends a byte. -/
def Obligations.StalledSinkHangsInSend : Prop :=
  ∀ (n : Nat) (s t : State), s.eng.st = .send →
    (∀ c ∈ s.inputs, c.rst = false ∧ c.linkErr = false ∧ c.txReady = false) →
    Host.Core.run core n s = .next t →
      t.eng.st = .send ∧ t.eng.txcount = s.eng.txcount ∧ t.txOut = s.txOut

/-- 20 R68, 42 R162, R163: given as many handshakes as bytes are left, the whole rest of the frame leaves, in order, each
byte once, and the command is then in its window, or done with OK where no acknowledgement is expected. The count of two
steps a cycle, the handshake and the passing over of the emptied cycle, is the model's (log entry 2, DEDUCED). -/
def Obligations.WholeFrameLeavesInOrder : Prop :=
  ∀ (s : State) (rest : List Cycle), s.Inv → s.eng.st = .send →
    s.inputs = List.replicate (s.eng.flen - s.eng.txcount) { txReady := true } ++ rest →
      ∃ t, Host.Core.run core (2 * (s.eng.flen - s.eng.txcount)) s = .next t ∧ t.inputs = rest ∧
        t.txOut = s.txOut ++ (s.eng.frame.toList.take s.eng.flen).drop s.eng.txcount ∧
        t.eng.txcount = s.eng.flen ∧ t.regs = s.regs ∧
        (s.eng.expectAck = true → t.eng.st = .waitAck ∧ t.eng.done = false) ∧
        (s.eng.expectAck = false → t.eng.st = .idle ∧ t.eng.done = true ∧ t.eng.err = 0)

/-- 42 R173: the window expires at its `max(tlimit, 1)`-th tick and not before, the bytes received so far kept. The count of two steps a
tick, the tick and the passing over of the emptied cycle, is the model's (log entry 2, DEDUCED). -/
def Obligations.WindowExpiresAtItsLastTick : Prop :=
  ∀ (n : Nat) (s : State) (rest : List Cycle), s.eng.st = .waitAck → s.eng.tcount = 0 →
    n ≤ max s.eng.tlimit.toNat 1 → s.inputs = List.replicate n { tick := true } ++ rest →
      ∃ t, Host.Core.run core (2 * n) s = .next t ∧ t.inputs = rest ∧ t.eng.tcount.toNat = n ∧
        t.eng.ack = s.eng.ack ∧ t.eng.ackcnt = s.eng.ackcnt ∧
        (n < max s.eng.tlimit.toNat 1 → t.eng.st = .waitAck ∧ t.eng.done = s.eng.done) ∧
        (n = max s.eng.tlimit.toNat 1 → t.eng.st = .idle ∧ t.eng.done = true ∧ t.eng.err = 3)

/-- 30 R93, R94: the pseudo-statement of a command is one host write of its word to CMD, and running it, wherever it
stands in a script and whatever values are kept, is running the command and moving to the next statement. That the write
goes in front of everything on the ports and is wholly taken before the next statement is the model's choice (log entry
19, DESIGN CHOICE; the emptied cycle under `exec` is log entry 2). -/
def Obligations.ScriptCommandRunsTheCommand : Prop :=
  ∀ (i : Instr) (prog : List Stmt) (pos : Nat) (kept : List (String × Word)) (b : State), i.WellFormed →
    prog[pos]? = some (commandStmt i) →
      ∃ t, exec i { b with inputs := ({} : Cycle) :: b.inputs, busResp := .okay } = .next t ∧
        hostScriptStep prog { pc := pos, kept := kept, halted := false, block := b } =
          .next { pc := pos + 1, kept := kept, halted := false, block := { t with inputs := b.inputs } }
end

