-- ==== Sys2Proof/Laws/Decode.lean ====
section
/-! SUPPORT. The four legal command words as numbers (30 R82). -/

namespace Sys2Proof

@[simp] theorem toneWord_eq : toneWord = 0x00000001 := rfl
@[simp] theorem sweepWord_eq : sweepWord = 0x00000002 := rfl
@[simp] theorem stopWord_eq : stopWord = 0x000000FF := rfl
@[simp] theorem stopNoackWord_eq : stopNoackWord = 0x000001FF := rfl

end Sys2Proof
end

