-- ==== Sys2Proof/Laws/Frame.lean ====
section
/-! SUPPORT. The block's constants as numbers, what a successful `encodeFrame` says, and how the frame buffer holds a
frame. -/

namespace Sys2Proof.Machine

@[simp] theorem params_startSymbol : params.startSymbol = 0xAD := rfl
@[simp] theorem params_ack1 : params.ack1 = 0x66 := rfl
@[simp] theorem params_ack2 : params.ack2 = 0x13 := rfl
@[simp] theorem params_opTone : params.opTone = 0x01 := rfl
@[simp] theorem params_opSweep : params.opSweep = 0x02 := rfl
@[simp] theorem params_opStop : params.opStop = 0xFF := rfl
@[simp] theorem params_sweepFlag : params.sweepFlag = 0x01 := rfl
@[simp] theorem params_ackLen : params.ackLen = 3 := rfl

@[simp] theorem refclkField_params (r : Regs) : refclkField params r = rnd .halfEven r.refclk.toNat 100 := rfl
@[simp] theorem freqField_params (hz : Nat) : freqField params hz = rnd .halfEven hz 1000 := rfl
@[simp] theorem fits_params (v : Nat) : fits params v = decide (v ≤ 16777215) := rfl
@[simp] theorem gainByte_params (g : BitVec 2) : gainByte params g = BitVec.ofNat 8 (4 - g.toNat) := rfl

theorem deviceLegal_params (d : Byte) : deviceLegal params d = true ↔ d = 1 ∨ d = 2 := by
  unfold deviceLegal
  rw [Bool.or_eq_true, decide_eq_true_iff, decide_eq_true_iff]
  exact Iff.rfl

theorem stepLegal_params (v : Nat) : stepLegal params v = true ↔ v ≠ 0 ∧ v ≤ 16777215 := by
  unfold stepLegal
  rw [Bool.and_eq_true, decide_eq_true_iff, fits_params, decide_eq_true_iff]

/-- The body that a command's frame has. -/
def frameBody (c : Command) (r : Regs) : List Byte :=
  match c with
  | .tone => toneBody params r
  | .sweep => sweepBody params r
  | .stop => stopBody params r
  | .stopNoack => stopBody params r

/-- A frame that `encodeFrame` returns: its bytes, and the checks its registers have passed (40 R124). -/
theorem encodeFrame_ok {c : Command} {r : Regs} {bytes : List Byte} (h : encodeFrame params c r = .ok bytes) :
    bytes = withChecksum (frameBody c r) ∧ (r.devtype = 1 ∨ r.devtype = 2) ∧
      (c = .tone ∨ c = .sweep →
        rnd .halfEven r.refclk.toNat 100 ≤ 16777215 ∧ rnd .halfEven r.f0 1000 ≤ 16777215) ∧
      (c = .sweep → rnd .halfEven r.f1 1000 ≤ 16777215 ∧ r.step.toNat ≠ 0 ∧ r.step.toNat ≤ 16777215) := by
  unfold encodeFrame at h
  cases c <;> simp only [] at h <;> split_ifs at h <;>
    simp_all [deviceLegal_params, stepLegal_params, frameBody, stepField]

/-- The only error of the encoder is ERR_PARAM. -/
theorem encodeFrame_error {c : Command} {r : Regs} {code : ErrorCode} (h : encodeFrame params c r = .error code) :
    code = .param := by
  unfold encodeFrame at h
  cases c <;> simp only [] at h <;> split_ifs at h <;> simp_all

@[simp] theorem zeroFill_nil : zeroFill [] = Vector.replicate 18 0 := by decide

/-- Reading a latched frame byte by byte: the frame, then zeros (40 R127). -/
theorem zeroFill_getD (bytes : List Byte) (h : bytes.length ≤ 18) (i : Nat) :
    ((zeroFill bytes)[i]?).getD 0 = bytes.getD i 0 := by
  unfold zeroFill
  by_cases hi : i < 18
  · simp [hi]
  · simp [hi, show bytes.length ≤ i by omega]

/-- The first bytes of a latched frame are the first bytes of the frame. -/
theorem zeroFill_take (bytes : List Byte) (h : bytes.length ≤ 18) (n : Nat) (hn : n ≤ bytes.length) :
    (zeroFill bytes).toList.take n = bytes.take n := by
  apply List.ext_getElem
  · simp; omega
  · intro i h1 h2
    simp only [List.length_take] at h1 h2
    have : i < bytes.length := by omega
    simp [zeroFill, this]

end Sys2Proof.Machine
end

