-- ==== Sys2Proof/Laws/State.lean ====
section
/-! SUPPORT. What each shared update leaves in each field, one lemma a field, so that no proof unfolds an update. -/

namespace Sys2Proof.Machine

@[simp] theorem complete_cmdLast (c : ErrorCode) (e : Engine) : (complete c e).cmdLast = e.cmdLast := rfl
@[simp] theorem complete_st (c : ErrorCode) (e : Engine) : (complete c e).st = .idle := rfl
@[simp] theorem complete_expectAck (c : ErrorCode) (e : Engine) : (complete c e).expectAck = e.expectAck := rfl
@[simp] theorem complete_frame (c : ErrorCode) (e : Engine) : (complete c e).frame = e.frame := rfl
@[simp] theorem complete_flen (c : ErrorCode) (e : Engine) : (complete c e).flen = e.flen := rfl
@[simp] theorem complete_txcount (c : ErrorCode) (e : Engine) : (complete c e).txcount = e.txcount := rfl
@[simp] theorem complete_ack (c : ErrorCode) (e : Engine) : (complete c e).ack = e.ack := rfl
@[simp] theorem complete_ackcnt (c : ErrorCode) (e : Engine) : (complete c e).ackcnt = e.ackcnt := rfl
@[simp] theorem complete_tcount (c : ErrorCode) (e : Engine) : (complete c e).tcount = e.tcount := rfl
@[simp] theorem complete_tlimit (c : ErrorCode) (e : Engine) : (complete c e).tlimit = e.tlimit := rfl
@[simp] theorem complete_done (c : ErrorCode) (e : Engine) : (complete c e).done = true := rfl
@[simp] theorem complete_err (c : ErrorCode) (e : Engine) : (complete c e).err = c.code := rfl
@[simp] theorem complete_overrun (c : ErrorCode) (e : Engine) : (complete c e).overrun = e.overrun := rfl
@[simp] theorem complete_rxdisc (c : ErrorCode) (e : Engine) : (complete c e).rxdisc = e.rxdisc := rfl

@[simp] theorem goPrologue_cmdLast (w : Word) (e : Engine) : (goPrologue w e).cmdLast = w := rfl
@[simp] theorem goPrologue_st (w : Word) (e : Engine) : (goPrologue w e).st = e.st := rfl
@[simp] theorem goPrologue_expectAck (w : Word) (e : Engine) : (goPrologue w e).expectAck = e.expectAck := rfl
@[simp] theorem goPrologue_frame (w : Word) (e : Engine) : (goPrologue w e).frame = e.frame := rfl
@[simp] theorem goPrologue_flen (w : Word) (e : Engine) : (goPrologue w e).flen = e.flen := rfl
@[simp] theorem goPrologue_txcount (w : Word) (e : Engine) : (goPrologue w e).txcount = 0 := rfl
@[simp] theorem goPrologue_ack (w : Word) (e : Engine) : (goPrologue w e).ack = Vector.replicate 3 0 := rfl
@[simp] theorem goPrologue_ackcnt (w : Word) (e : Engine) : (goPrologue w e).ackcnt = 0 := rfl
@[simp] theorem goPrologue_tcount (w : Word) (e : Engine) : (goPrologue w e).tcount = 0 := rfl
@[simp] theorem goPrologue_tlimit (w : Word) (e : Engine) : (goPrologue w e).tlimit = e.tlimit := rfl
@[simp] theorem goPrologue_done (w : Word) (e : Engine) : (goPrologue w e).done = false := rfl
@[simp] theorem goPrologue_err (w : Word) (e : Engine) : (goPrologue w e).err = 0 := rfl
@[simp] theorem goPrologue_overrun (w : Word) (e : Engine) : (goPrologue w e).overrun = e.overrun := rfl
@[simp] theorem goPrologue_rxdisc (w : Word) (e : Engine) : (goPrologue w e).rxdisc = e.rxdisc := rfl

@[simp] theorem reject_cmdLast (c : ErrorCode) (e : Engine) : (reject c e).cmdLast = e.cmdLast := rfl
@[simp] theorem reject_st (c : ErrorCode) (e : Engine) : (reject c e).st = .idle := rfl
@[simp] theorem reject_expectAck (c : ErrorCode) (e : Engine) : (reject c e).expectAck = false := rfl
@[simp] theorem reject_frame (c : ErrorCode) (e : Engine) : (reject c e).frame = zeroFill [] := rfl
@[simp] theorem reject_flen (c : ErrorCode) (e : Engine) : (reject c e).flen = 0 := rfl
@[simp] theorem reject_txcount (c : ErrorCode) (e : Engine) : (reject c e).txcount = e.txcount := rfl
@[simp] theorem reject_ack (c : ErrorCode) (e : Engine) : (reject c e).ack = e.ack := rfl
@[simp] theorem reject_ackcnt (c : ErrorCode) (e : Engine) : (reject c e).ackcnt = e.ackcnt := rfl
@[simp] theorem reject_tcount (c : ErrorCode) (e : Engine) : (reject c e).tcount = e.tcount := rfl
@[simp] theorem reject_tlimit (c : ErrorCode) (e : Engine) : (reject c e).tlimit = e.tlimit := rfl
@[simp] theorem reject_done (c : ErrorCode) (e : Engine) : (reject c e).done = true := rfl
@[simp] theorem reject_err (c : ErrorCode) (e : Engine) : (reject c e).err = c.code := rfl
@[simp] theorem reject_overrun (c : ErrorCode) (e : Engine) : (reject c e).overrun = e.overrun := rfl
@[simp] theorem reject_rxdisc (c : ErrorCode) (e : Engine) : (reject c e).rxdisc = e.rxdisc := rfl

@[simp] theorem accept_cmdLast (bs : List Byte) (x : Bool) (n : Word) (e : Engine) : (accept bs x n e).cmdLast = e.cmdLast := rfl
@[simp] theorem accept_st (bs : List Byte) (x : Bool) (n : Word) (e : Engine) : (accept bs x n e).st = .send := rfl
@[simp] theorem accept_expectAck (bs : List Byte) (x : Bool) (n : Word) (e : Engine) : (accept bs x n e).expectAck = x := rfl
@[simp] theorem accept_frame (bs : List Byte) (x : Bool) (n : Word) (e : Engine) : (accept bs x n e).frame = zeroFill bs := rfl
@[simp] theorem accept_flen (bs : List Byte) (x : Bool) (n : Word) (e : Engine) : (accept bs x n e).flen = bs.length := rfl
@[simp] theorem accept_txcount (bs : List Byte) (x : Bool) (n : Word) (e : Engine) : (accept bs x n e).txcount = e.txcount := rfl
@[simp] theorem accept_ack (bs : List Byte) (x : Bool) (n : Word) (e : Engine) : (accept bs x n e).ack = e.ack := rfl
@[simp] theorem accept_ackcnt (bs : List Byte) (x : Bool) (n : Word) (e : Engine) : (accept bs x n e).ackcnt = e.ackcnt := rfl
@[simp] theorem accept_tcount (bs : List Byte) (x : Bool) (n : Word) (e : Engine) : (accept bs x n e).tcount = e.tcount := rfl
@[simp] theorem accept_tlimit (bs : List Byte) (x : Bool) (n : Word) (e : Engine) : (accept bs x n e).tlimit = n := rfl
@[simp] theorem accept_done (bs : List Byte) (x : Bool) (n : Word) (e : Engine) : (accept bs x n e).done = e.done := rfl
@[simp] theorem accept_err (bs : List Byte) (x : Bool) (n : Word) (e : Engine) : (accept bs x n e).err = e.err := rfl
@[simp] theorem accept_overrun (bs : List Byte) (x : Bool) (n : Word) (e : Engine) : (accept bs x n e).overrun = e.overrun := rfl
@[simp] theorem accept_rxdisc (bs : List Byte) (x : Bool) (n : Word) (e : Engine) : (accept bs x n e).rxdisc = e.rxdisc := rfl

@[simp] theorem overrunWrite_cmdLast (e : Engine) : (overrunWrite e).cmdLast = e.cmdLast := rfl
@[simp] theorem overrunWrite_st (e : Engine) : (overrunWrite e).st = e.st := rfl
@[simp] theorem overrunWrite_expectAck (e : Engine) : (overrunWrite e).expectAck = e.expectAck := rfl
@[simp] theorem overrunWrite_frame (e : Engine) : (overrunWrite e).frame = e.frame := rfl
@[simp] theorem overrunWrite_flen (e : Engine) : (overrunWrite e).flen = e.flen := rfl
@[simp] theorem overrunWrite_txcount (e : Engine) : (overrunWrite e).txcount = e.txcount := rfl
@[simp] theorem overrunWrite_ack (e : Engine) : (overrunWrite e).ack = e.ack := rfl
@[simp] theorem overrunWrite_ackcnt (e : Engine) : (overrunWrite e).ackcnt = e.ackcnt := rfl
@[simp] theorem overrunWrite_tcount (e : Engine) : (overrunWrite e).tcount = e.tcount := rfl
@[simp] theorem overrunWrite_tlimit (e : Engine) : (overrunWrite e).tlimit = e.tlimit := rfl
@[simp] theorem overrunWrite_done (e : Engine) : (overrunWrite e).done = e.done := rfl
@[simp] theorem overrunWrite_err (e : Engine) : (overrunWrite e).err = e.err := rfl
@[simp] theorem overrunWrite_overrun (e : Engine) : (overrunWrite e).overrun = true := rfl
@[simp] theorem overrunWrite_rxdisc (e : Engine) : (overrunWrite e).rxdisc = e.rxdisc := rfl

@[simp] theorem openWindow_cmdLast (e : Engine) : (openWindow e).cmdLast = e.cmdLast := rfl
@[simp] theorem openWindow_st (e : Engine) : (openWindow e).st = .waitAck := rfl
@[simp] theorem openWindow_expectAck (e : Engine) : (openWindow e).expectAck = e.expectAck := rfl
@[simp] theorem openWindow_frame (e : Engine) : (openWindow e).frame = e.frame := rfl
@[simp] theorem openWindow_flen (e : Engine) : (openWindow e).flen = e.flen := rfl
@[simp] theorem openWindow_txcount (e : Engine) : (openWindow e).txcount = e.txcount := rfl
@[simp] theorem openWindow_ack (e : Engine) : (openWindow e).ack = Vector.replicate 3 0 := rfl
@[simp] theorem openWindow_ackcnt (e : Engine) : (openWindow e).ackcnt = 0 := rfl
@[simp] theorem openWindow_tcount (e : Engine) : (openWindow e).tcount = 0 := rfl
@[simp] theorem openWindow_tlimit (e : Engine) : (openWindow e).tlimit = e.tlimit := rfl
@[simp] theorem openWindow_done (e : Engine) : (openWindow e).done = e.done := rfl
@[simp] theorem openWindow_err (e : Engine) : (openWindow e).err = e.err := rfl
@[simp] theorem openWindow_overrun (e : Engine) : (openWindow e).overrun = e.overrun := rfl
@[simp] theorem openWindow_rxdisc (e : Engine) : (openWindow e).rxdisc = e.rxdisc := rfl

@[simp] theorem statusWrite_cmdLast (w : Word) (e : Engine) : (statusWrite w e).cmdLast = e.cmdLast := rfl
@[simp] theorem statusWrite_st (w : Word) (e : Engine) : (statusWrite w e).st = e.st := rfl
@[simp] theorem statusWrite_expectAck (w : Word) (e : Engine) : (statusWrite w e).expectAck = e.expectAck := rfl
@[simp] theorem statusWrite_frame (w : Word) (e : Engine) : (statusWrite w e).frame = e.frame := rfl
@[simp] theorem statusWrite_flen (w : Word) (e : Engine) : (statusWrite w e).flen = e.flen := rfl
@[simp] theorem statusWrite_txcount (w : Word) (e : Engine) : (statusWrite w e).txcount = e.txcount := rfl
@[simp] theorem statusWrite_ack (w : Word) (e : Engine) : (statusWrite w e).ack = e.ack := rfl
@[simp] theorem statusWrite_ackcnt (w : Word) (e : Engine) : (statusWrite w e).ackcnt = e.ackcnt := rfl
@[simp] theorem statusWrite_tcount (w : Word) (e : Engine) : (statusWrite w e).tcount = e.tcount := rfl
@[simp] theorem statusWrite_tlimit (w : Word) (e : Engine) : (statusWrite w e).tlimit = e.tlimit := rfl
@[simp] theorem statusWrite_done (w : Word) (e : Engine) : (statusWrite w e).done = (e.done && !w.getLsbD 4) := rfl
@[simp] theorem statusWrite_err (w : Word) (e : Engine) : (statusWrite w e).err = e.err := rfl
@[simp] theorem statusWrite_overrun (w : Word) (e : Engine) : (statusWrite w e).overrun = (e.overrun && !w.getLsbD 16) := rfl
@[simp] theorem statusWrite_rxdisc (w : Word) (e : Engine) : (statusWrite w e).rxdisc = (e.rxdisc && !w.getLsbD 17) := rfl

@[simp] theorem storeAck_cmdLast (b : Byte) (e : Engine) : (storeAck b e).cmdLast = e.cmdLast := rfl
@[simp] theorem storeAck_st (b : Byte) (e : Engine) : (storeAck b e).st = e.st := rfl
@[simp] theorem storeAck_expectAck (b : Byte) (e : Engine) : (storeAck b e).expectAck = e.expectAck := rfl
@[simp] theorem storeAck_frame (b : Byte) (e : Engine) : (storeAck b e).frame = e.frame := rfl
@[simp] theorem storeAck_flen (b : Byte) (e : Engine) : (storeAck b e).flen = e.flen := rfl
@[simp] theorem storeAck_txcount (b : Byte) (e : Engine) : (storeAck b e).txcount = e.txcount := rfl
@[simp] theorem storeAck_ack (b : Byte) (e : Engine) : (storeAck b e).ack = e.ack.setIfInBounds e.ackcnt b := rfl
@[simp] theorem storeAck_ackcnt (b : Byte) (e : Engine) : (storeAck b e).ackcnt = e.ackcnt + 1 := rfl
@[simp] theorem storeAck_tcount (b : Byte) (e : Engine) : (storeAck b e).tcount = e.tcount := rfl
@[simp] theorem storeAck_tlimit (b : Byte) (e : Engine) : (storeAck b e).tlimit = e.tlimit := rfl
@[simp] theorem storeAck_done (b : Byte) (e : Engine) : (storeAck b e).done = e.done := rfl
@[simp] theorem storeAck_err (b : Byte) (e : Engine) : (storeAck b e).err = e.err := rfl
@[simp] theorem storeAck_overrun (b : Byte) (e : Engine) : (storeAck b e).overrun = e.overrun := rfl
@[simp] theorem storeAck_rxdisc (b : Byte) (e : Engine) : (storeAck b e).rxdisc = e.rxdisc := rfl

@[simp] theorem emitByte_regs (s : State) : (emitByte s).regs = s.regs := rfl
@[simp] theorem emitByte_inputs (s : State) : (emitByte s).inputs = s.inputs := rfl
@[simp] theorem emitByte_busResp (s : State) : (emitByte s).busResp = s.busResp := rfl
@[simp] theorem emitByte_txOut (s : State) :
    (emitByte s).txOut = s.txOut ++ [frameByte s.eng s.eng.txcount] := rfl
@[simp] theorem emitByte_eng_cmdLast (s : State) : (emitByte s).eng.cmdLast = s.eng.cmdLast := rfl
@[simp] theorem emitByte_eng_st (s : State) : (emitByte s).eng.st = s.eng.st := rfl
@[simp] theorem emitByte_eng_expectAck (s : State) : (emitByte s).eng.expectAck = s.eng.expectAck := rfl
@[simp] theorem emitByte_eng_frame (s : State) : (emitByte s).eng.frame = s.eng.frame := rfl
@[simp] theorem emitByte_eng_flen (s : State) : (emitByte s).eng.flen = s.eng.flen := rfl
@[simp] theorem emitByte_eng_txcount (s : State) : (emitByte s).eng.txcount = s.eng.txcount + 1 := rfl
@[simp] theorem emitByte_eng_ack (s : State) : (emitByte s).eng.ack = s.eng.ack := rfl
@[simp] theorem emitByte_eng_ackcnt (s : State) : (emitByte s).eng.ackcnt = s.eng.ackcnt := rfl
@[simp] theorem emitByte_eng_tcount (s : State) : (emitByte s).eng.tcount = s.eng.tcount := rfl
@[simp] theorem emitByte_eng_tlimit (s : State) : (emitByte s).eng.tlimit = s.eng.tlimit := rfl
@[simp] theorem emitByte_eng_done (s : State) : (emitByte s).eng.done = s.eng.done := rfl
@[simp] theorem emitByte_eng_err (s : State) : (emitByte s).eng.err = s.eng.err := rfl
@[simp] theorem emitByte_eng_overrun (s : State) : (emitByte s).eng.overrun = s.eng.overrun := rfl
@[simp] theorem emitByte_eng_rxdisc (s : State) : (emitByte s).eng.rxdisc = s.eng.rxdisc := rfl

@[simp] theorem resetBlock_regs (s : State) : (resetBlock s).regs = Regs.reset := rfl
@[simp] theorem resetBlock_eng (s : State) : (resetBlock s).eng = Engine.reset := rfl
@[simp] theorem resetBlock_inputs (s : State) : (resetBlock s).inputs = s.inputs := rfl
@[simp] theorem resetBlock_txOut (s : State) : (resetBlock s).txOut = s.txOut := rfl
@[simp] theorem resetBlock_busResp (s : State) : (resetBlock s).busResp = s.busResp := rfl

end Sys2Proof.Machine
end

