-- ==== Sys2Proof/Laws/Ops.lean ====
section
/-! SUPPORT. What a CMD write can do: one equation for `exec`, and the two ends of a legal command's GO. -/

namespace Sys2Proof.Machine

/-- What an instruction does after the prologue of its GO. -/
def afterPrologue : Instr → Regs → Engine → Engine
  | .tone => startCommand .tone
  | .sweep => startCommand .sweep
  | .stop => startCommand .stop
  | .stopNoack => startCommand .stopNoack
  | .illegal _ => fun _ e => reject .cmd e

/-- Every command is one write to CMD. -/
theorem exec_eq_cmdWrite (i : Instr) (s : State) : exec i s = cmdWrite (encode i) (afterPrologue i) s := by
  cases i <;> rfl

/-- A command answers a next state that differs in the engine alone. -/
theorem exec_next (i : Instr) (s : State) :
    exec i s = .next { s with
      eng := if s.eng.st = .idle then afterPrologue i s.regs (goPrologue (encode i) s.eng)
        else overrunWrite s.eng } := by
  rw [exec_eq_cmdWrite]; rfl

/-- A legal command's GO is rejected with ERR_PARAM or accepts a frame the encoder gave (41 R140). -/
theorem startCommand_cases (c : Command) (r : Regs) (e : Engine) :
    startCommand c r e = reject .param e ∨
      ∃ bytes, encodeFrame params c r = .ok bytes ∧
        startCommand c r e = accept bytes (Command.expectsAck c) r.timeout e := by
  unfold startCommand
  cases h : encodeFrame params c r with
  | error code => exact .inl (by rw [encodeFrame_error h])
  | ok bytes => exact .inr ⟨bytes, rfl, rfl⟩

/-- A GO ends in one of three ways: ERR_CMD, ERR_PARAM, or a frame latched for sending. -/
theorem afterPrologue_cases (i : Instr) (r : Regs) (e : Engine) :
    ((∃ w, i = .illegal w) ∧ afterPrologue i r e = reject .cmd e) ∨
      afterPrologue i r e = reject .param e ∨
      ∃ c bytes, encodeFrame params c r = .ok bytes ∧
        afterPrologue i r e = accept bytes (Command.expectsAck c) r.timeout e := by
  cases i with
  | illegal w => exact .inl ⟨⟨w, rfl⟩, rfl⟩
  | tone => exact (startCommand_cases .tone r e).elim (.inr ∘ .inl) fun ⟨b, h⟩ => .inr (.inr ⟨.tone, b, h⟩)
  | sweep => exact (startCommand_cases .sweep r e).elim (.inr ∘ .inl) fun ⟨b, h⟩ => .inr (.inr ⟨.sweep, b, h⟩)
  | stop => exact (startCommand_cases .stop r e).elim (.inr ∘ .inl) fun ⟨b, h⟩ => .inr (.inr ⟨.stop, b, h⟩)
  | stopNoack =>
    exact (startCommand_cases .stopNoack r e).elim (.inr ∘ .inl) fun ⟨b, h⟩ => .inr (.inr ⟨.stopNoack, b, h⟩)

end Sys2Proof.Machine
end

