-- ==== Sys2Proof/Laws/Bus.lean ====
section
/-! SUPPORT. What a host access can do (20 R61 to R65). -/

namespace Sys2Proof.Machine

/-- The map has one register per offset (10 R20). -/
theorem regAt_offset (r : Reg) : regAt r.offset = some r := by cases r <;> rfl

/-- A register found at an offset has that offset. -/
theorem offset_of_regAt {off : BitVec 7} {r : Reg} (h : regAt off = some r) : r.offset = off := by
  have := List.find?_some h
  simpa using this

/-- Every register lies on a word boundary. -/
theorem offset_aligned (r : Reg) : r.offset.extractLsb' 0 2 = 0 := by cases r <;> rfl

/-- An aligned 32-bit access to a register is served. -/
@[simp] theorem checkAccess_reg (k : AccessKind) (r : Reg) : checkAccess ⟨k, .word, r.offset⟩ = .ok r := by
  simp [checkAccess, offset_aligned, regAt_offset]

/-- Only an aligned 32-bit access to a register is served. -/
theorem checkAccess_ok {a : Access} {r : Reg} (h : checkAccess a = .ok r) : a.width = .word ∧ a.offset = r.offset := by
  unfold checkAccess at h
  split_ifs at h with h1 h2
  cases hr : regAt a.offset with
  | none => simp [hr] at h
  | some q =>
    simp only [hr, Except.ok.injEq] at h
    exact ⟨by simpa using h1, by rw [← h, offset_of_regAt hr]⟩

/-- A read of a register answers it and changes nothing else (20 R64). -/
@[simp] theorem hostAccess_read (r : Reg) (s : State) :
    hostAccess ⟨.read, .word, r.offset⟩ s = .next { s with busResp := .data (readReg r s) } := by
  simp [hostAccess]

/-- A write to a register is answered OKAY and takes the register's effect (20 R63, R65). -/
@[simp] theorem hostAccess_write (r : Reg) (w : Word) (s : State) :
    hostAccess ⟨.write w, .word, r.offset⟩ s = writeReg r w { s with busResp := .okay } := by
  simp [hostAccess]

/-- A host access faults with nothing changed, reads, runs a command, clears flags, or stores a parameter. -/
theorem hostAccess_cases (a : Access) (s : State) :
    (∃ why, checkAccess a = .error why ∧ hostAccess a s = .fault (.hostError why { s with busResp := .error })) ∨
      (∃ r, a = ⟨.read, .word, Reg.offset r⟩ ∧ hostAccess a s = .next { s with busResp := .data (readReg r s) }) ∨
      (∃ w, a = ⟨.write w, .word, 0x00⟩ ∧ hostAccess a s = exec (decode w) { s with busResp := .okay }) ∨
      (∃ w, a = ⟨.write w, .word, 0x04⟩ ∧
        hostAccess a s = .next { s with busResp := .okay, eng := statusWrite w s.eng }) ∨
      (∃ w r, a = ⟨.write w, .word, Reg.offset r⟩ ∧ r ≠ .cmd ∧ r ≠ .status ∧
        hostAccess a s = .next { s with busResp := .okay, regs := storeReg r w s.regs }) := by
  cases h : checkAccess a with
  | error why => exact .inl ⟨why, rfl, by simp [hostAccess, h]⟩
  | ok r =>
    right
    obtain ⟨k, width, off⟩ := a
    obtain ⟨hw, ho⟩ := checkAccess_ok h
    simp only at hw ho
    subst hw ho
    cases k with
    | read => exact .inl ⟨r, rfl, by simp [hostAccess]⟩
    | write w =>
      right
      by_cases h1 : r = .cmd
      · subst h1; exact .inl ⟨w, rfl, by simp [hostAccess, writeReg]⟩
      · by_cases h2 : r = .status
        · subst h2; exact .inr (.inl ⟨w, rfl, by simp [hostAccess, writeReg]⟩)
        · refine .inr (.inr ⟨w, r, rfl, h1, h2, ?_⟩)
          cases r <;> simp_all [hostAccess, writeReg]

end Sys2Proof.Machine
end

