-- ==== Sys2Proof/Laws/Exchange.lean ====
section
/-! SUPPORT. What each exchange event can do to the engine, case by case (42 R160). -/

namespace Sys2Proof.Machine

@[simp] theorem txValid_iff (e : Engine) : txValid e = true ↔ e.st = .send := by simp [txValid]

/-- `TxAccept` sends a byte, sends the last byte, or does nothing (42 R162, R163). -/
theorem txAccept_cases (s : State) :
    (s.eng.st = .send ∧ s.eng.txcount + 1 < s.eng.flen ∧ txAccept s = emitByte s) ∨
      (s.eng.st = .send ∧ s.eng.txcount + 1 = s.eng.flen ∧
        txAccept s = { emitByte s with eng := afterLastByte (emitByte s).eng }) ∨
      ((s.eng.st = .send → s.eng.flen ≤ s.eng.txcount) ∧ txAccept s = s) := by
  unfold txAccept
  by_cases h : s.eng.st = .send
  · by_cases h1 : s.eng.txcount + 1 < s.eng.flen
    · exact .inl ⟨h, h1, by simp [h, h1]⟩
    · by_cases h2 : s.eng.txcount + 1 = s.eng.flen
      · exact .inr (.inl ⟨h, h2, by simp [h, h2]⟩)
      · exact .inr (.inr ⟨fun _ => by omega, by simp [h1, h2]⟩)
  · exact .inr (.inr ⟨fun hs => absurd hs h, by simp [h]⟩)

/-- The last handshake opens the window or completes with OK (42 R163). -/
theorem afterLastByte_cases (e : Engine) :
    (e.expectAck = true ∧ afterLastByte e = openWindow e) ∨
      (e.expectAck = false ∧ afterLastByte e = complete .ok e) := by
  unfold afterLastByte; cases e.expectAck <;> simp

/-- `RxByte` is collected, decides, is discarded, or (past three bytes, which no run reaches) is nothing (42 R167 to
R170). -/
theorem rxByte_cases (b : Byte) (e : Engine) :
    (e.st = .waitAck ∧ e.ackcnt + 1 < 3 ∧ rxByte b e = storeAck b e) ∨
      (e.st = .waitAck ∧ e.ackcnt = 2 ∧
        rxByte b e = complete (ackVerdict (storeAck b e)) (storeAck b e)) ∨
      (e.st = .waitAck ∧ 3 ≤ e.ackcnt ∧ rxByte b e = e) ∨
      (e.st ≠ .waitAck ∧ rxByte b e = { e with rxdisc := true }) := by
  unfold rxByte
  cases h : e.st with
  | idle => simp
  | send => simp
  | waitAck =>
    simp only [params_ackLen]
    by_cases h1 : e.ackcnt + 1 < 3
    · simp [h1]
    · by_cases h2 : e.ackcnt = 2
      · simp [h2]
      · have h3 : 3 ≤ e.ackcnt := by omega
        simp [h3, show ¬ e.ackcnt + 1 = 3 by omega, show ¬ e.ackcnt + 1 < 3 by omega]

/-- `Tick` counts, expires the window, or does nothing (42 R171 to R173). -/
theorem tickEvent_cases (e : Engine) :
    (e.st = .waitAck ∧ e.tcount.toNat + 1 < e.tlimit.toNat ∧ tickEvent e = { e with tcount := e.tcount + 1 }) ∨
      (e.st = .waitAck ∧ e.tlimit.toNat ≤ e.tcount.toNat + 1 ∧
        tickEvent e = complete .timeout { e with tcount := e.tcount + 1 }) ∨
      (e.st ≠ .waitAck ∧ tickEvent e = e) := by
  unfold tickEvent
  cases h : e.st with
  | idle => simp
  | send => simp
  | waitAck =>
    by_cases h1 : e.tlimit.toNat ≤ e.tcount.toNat + 1
    · simp [h1]
    · simp [h1]; omega

/-- `LinkErr` ends a command in progress, or does nothing (42 R174). -/
theorem linkErrEvent_cases (e : Engine) :
    (e.st ≠ .idle ∧ linkErrEvent e = complete .io e) ∨ (e.st = .idle ∧ linkErrEvent e = e) := by
  unfold linkErrEvent
  cases h : e.st <;> simp

/-- The decoder answers OK or ERR_BADACK, nothing else (42 R169). -/
theorem ackVerdict_cases (e : Engine) : ackVerdict e = .ok ∨ ackVerdict e = .badAck := by
  unfold ackVerdict decodeAck; split <;> simp

end Sys2Proof.Machine
end

