-- ==== Sys2Proof/Laws/PerInstr.lean ====
section
/-! SUPPORT. A statement about every instruction, proved by one lemma per constructor: its word and how it decodes
(30 R82, R83). -/

namespace Sys2Proof.Laws.CommandWord

/-- A well-formed instruction is what its own word decodes to. -/
def Statement (i : Instr) : Prop := i.WellFormed → decode (encode i) = i

theorem tone : Statement .tone := fun _ => rfl
theorem sweep : Statement .sweep := fun _ => rfl
theorem stop : Statement .stop := fun _ => rfl
theorem stopNoack : Statement .stopNoack := fun _ => rfl

theorem illegal (w : Word) : Statement (.illegal w) := by
  intro h
  simp only [Instr.WellFormed, legalWords, List.mem_cons, List.not_mem_nil, or_false, not_or] at h
  obtain ⟨h1, h2, h3, h4⟩ := h
  unfold decode encode
  rw [if_neg h1, if_neg h2, if_neg h3, if_neg h4]

end Sys2Proof.Laws.CommandWord
end

