-- ==== Sys2Proof/Laws/Step.lean ====
section
/-! SUPPORT. What a step can do: wait, pass over an empty cycle, or perform the pending event (20 R66). -/

namespace Sys2Proof.Machine

/-- A step waits, passes over an empty cycle, or performs the pending event on the rest of the ports. -/
theorem step_cases (s : State) :
    (s.inputs = [] ∧ pendingEvent s = none ∧ step s = .next s) ∨
      (∃ c cs, s.inputs = c :: cs ∧ nextEvent c = none ∧ pendingEvent s = none ∧
        step s = .next { s with inputs := cs }) ∨
      ∃ c cs ev c', s.inputs = c :: cs ∧ nextEvent c = some (ev, c') ∧ pendingEvent s = some ev ∧
        step s = performEvent ev { s with inputs := c' :: cs } := by
  unfold step stepInputs pendingEvent
  cases h : s.inputs with
  | nil => simp
  | cons c cs =>
    right
    cases h1 : nextEvent c with
    | none => exact .inl ⟨c, cs, rfl, h1, by simp [h1]⟩
    | some p => exact .inr ⟨c, cs, p.1, p.2, rfl, h1, by simp [h1]⟩

/-- A cycle that carries reset resets first; no later signal of it is lost. -/
theorem nextEvent_reset (c : Cycle) (h : c.rst = true) : nextEvent c = some (.reset, { c with rst := false }) := by
  simp [nextEvent, h]

/-- Without reset, the host access of a cycle comes first. -/
theorem nextEvent_host (c : Cycle) (a : Access) (h : c.rst = false) (ha : c.host = some a) :
    nextEvent c = some (.host a, { c with host := none }) := by
  simp [nextEvent, h, ha]

/-- A cycle without a signal has no event. -/
theorem nextEvent_empty : nextEvent {} = none := rfl

/-- A handshake looks at the engine and adds to the TX stream; the other ports make no difference to it. -/
theorem txAccept_inputs (s : State) (cs : List Cycle) :
    txAccept { s with inputs := cs } = { txAccept s with inputs := cs } := by
  unfold txAccept
  split_ifs <;> simp_all [emitByte]

/-- What a step that answers a next state has done to the engine, the TX stream and the parameters, event by event; the
first case is a step without an event, a read, or a write to a parameter or read-only register. -/
theorem step_engine_cases (s t : State) (h : step s = .next t) :
    (t.eng = s.eng ∧ t.txOut = s.txOut ∧ ∀ w, pendingEvent s ≠ some (.host ⟨.write w, .word, 0x00⟩)) ∨
      (pendingEvent s = some .reset ∧ t.eng = Engine.reset ∧ t.regs = Regs.reset ∧ t.txOut = s.txOut) ∨
      (∃ w, pendingEvent s = some (.host ⟨.write w, .word, 0x00⟩) ∧ t.regs = s.regs ∧ t.txOut = s.txOut ∧
        t.eng = if s.eng.st = .idle then afterPrologue (decode w) s.regs (goPrologue (encode (decode w)) s.eng)
          else overrunWrite s.eng) ∨
      (∃ w, pendingEvent s = some (.host ⟨.write w, .word, 0x04⟩) ∧ t.regs = s.regs ∧ t.txOut = s.txOut ∧
        t.eng = statusWrite w s.eng) ∨
      (pendingEvent s = some .linkErr ∧ t.regs = s.regs ∧ t.txOut = s.txOut ∧ t.eng = linkErrEvent s.eng) ∨
      (pendingEvent s = some .txAccept ∧ t.regs = s.regs ∧ t.txOut = (txAccept s).txOut ∧
        t.eng = (txAccept s).eng) ∨
      (∃ b, pendingEvent s = some (.rxByte b) ∧ t.regs = s.regs ∧ t.txOut = s.txOut ∧ t.eng = rxByte b s.eng) ∨
      (pendingEvent s = some .tick ∧ t.regs = s.regs ∧ t.txOut = s.txOut ∧ t.eng = tickEvent s.eng) := by
  rcases step_cases s with ⟨_, d, h'⟩ | ⟨c, cs, _, _, d, h'⟩ | ⟨c, cs, ev, c', _, _, d, h'⟩ <;> rw [h'] at h
  · injection h with h; subst h; exact .inl ⟨rfl, rfl, by simp [d]⟩
  · injection h with h; subst h; exact .inl ⟨rfl, rfl, by simp [d]⟩
  · cases ev with
    | reset => injection h with h; subst h; exact .inr (.inl ⟨d, rfl, rfl, rfl⟩)
    | linkErr => injection h with h; subst h; simp [d]
    | txAccept =>
      injection h with h
      rw [txAccept_inputs] at h
      subst h
      have hr : (txAccept s).regs = s.regs := by unfold txAccept; split_ifs <;> rfl
      simp [d, hr]
    | rxByte b => injection h with h; subst h; simp [d]
    | tick => injection h with h; subst h; simp [d]
    | host a =>
      simp only [performEvent] at h
      rcases hostAccess_cases a { s with inputs := c' :: cs } with
        ⟨_, _, e⟩ | ⟨r, ha, e⟩ | ⟨w, ha, e⟩ | ⟨w, ha, e⟩ | ⟨w, r, ha, hr, _, e⟩ <;> rw [e] at h
      · simp at h
      · injection h with h; subst h; exact .inl ⟨rfl, rfl, by simp [d, ha]⟩
      · rw [exec_next] at h
        injection h with h; subst h
        exact .inr (.inr (.inl ⟨w, by rw [d, ha], rfl, rfl, rfl⟩))
      · injection h with h; subst h
        exact .inr (.inr (.inr (.inl ⟨w, by rw [d, ha], rfl, rfl, rfl⟩)))
      · injection h with h; subst h
        exact .inl ⟨rfl, rfl, by cases r <;> simp_all [Reg.offset]⟩

end Sys2Proof.Machine
end

