-- ==== Sys2Proof/Laws/Run.lean ====
section
/-! SUPPORT. Running the machine over cycles with one signal each: two steps a cycle, the event and the empty rest. -/

namespace Sys2Proof.Machine

/-- The step behind the host's interface is `step`. -/
theorem core_step (s : State) : core.step s = step s := rfl

/-- Two steps over a cycle whose one signal is the event `ev`: the event, then the empty cycle is passed over. -/
theorem run_one_signal (s t : State) (c : Cycle) (ev : Event) (rest : List Cycle) (n : Nat)
    (hi : s.inputs = c :: rest) (hc : nextEvent c = some (ev, {}))
    (ht : performEvent ev { s with inputs := {} :: rest } = .next t) (hti : t.inputs = {} :: rest) :
    Host.Core.run core (n + 2) s = Host.Core.run core n { t with inputs := rest } := by
  have h1 : step s = .next t := by simp [step, stepInputs, hi, hc, ht]
  have h2 : step t = .next { t with inputs := rest } := by simp [step, stepInputs, hti, nextEvent_empty]
  simp only [Host.Core.run, core_step, h1, h2]

end Sys2Proof.Machine
end

