-- ==== Sys2Proof/Laws/Safety.lean ====
section
/-! SUPPORT. The parameter errors as the encoder's checks and as numbers (40 R115, R119). -/

namespace Sys2Proof.Machine

/-- A device error is what the encoder's device check refuses. -/
theorem deviceError_iff (r : Regs) : DeviceError r ↔ deviceLegal params r.devtype = false := by
  rw [← Bool.not_eq_true, deviceLegal_params, not_or]
  exact Iff.rfl

/-- A field error is what the encoder's range check refuses. -/
theorem fieldError_iff (v : Nat) : FieldError v ↔ fits params v = false := by
  rw [fits_params, decide_eq_false_iff_not, Nat.not_le]
  exact Iff.rfl

end Sys2Proof.Machine
end

