-- ==== Sys2Proof/Tests/Slice0.lean ====
section
/-! SUPPORT. The model's own tests: expected values are the spec's vectors (95_test_vectors.md) or hand calculation from
the rule named; then, for each statement with hypotheses, a witness that meets them. -/

namespace Sys2Proof.Tests

open Sys2Proof.Machine

/-- The state an outcome answers satisfies `p`. -/
def nextIs (o : Host.Outcome State Fault Refusal) (p : State → Bool) : Bool :=
  match o with
  | .next t => p t
  | .fault _ => false
  | .refused _ => false

/-- The fault an outcome stops with. -/
def faultOf (o : Host.Outcome State Fault Refusal) : Option Fault :=
  match o with
  | .next _ => none
  | .fault f => some f
  | .refused _ => none

/-- The encoder gives exactly these bytes. -/
def encodesTo (cfg : Config) (c : Command) (r : Regs) (bytes : List Byte) : Bool :=
  match encodeFrame cfg c r with
  | .ok b => b = bytes
  | .error _ => false

/-- The encoder fails with ERR_PARAM. -/
def rejects (c : Command) (r : Regs) : Bool :=
  match encodeFrame params c r with
  | .ok _ => false
  | .error e => e = .param

/-- Parameter registers with the given Tone operands, the others as after reset. -/
def toneRegs (dev : Byte) (gain : BitVec 2) (refclk : Word) (f0 : BitVec 64) : Regs :=
  { Regs.reset with
    devtype := dev, gain := gain, refclk := refclk, f0Lo := f0.extractLsb' 0 32, f0Hi := f0.extractLsb' 32 32 }

/-- Parameter registers with the given Sweep operands. -/
def sweepRegs (dev : Byte) (gain : BitVec 2) (refclk : Word) (f0 f1 : BitVec 64) (st : Word) : Regs :=
  { toneRegs dev gain refclk f0 with
    f1Lo := f1.extractLsb' 0 32, f1Hi := f1.extractLsb' 32 32, step := st }

/-- An idle block with these parameters. -/
def idleWith (r : Regs) : State := { State.reset with regs := r }

/-- The registers of vector V-T1. -/
def vT1 : Regs := toneRegs 2 3 25000000 35000000

/-- The registers of vector V-S1. -/
def vS1 : Regs := sweepRegs 1 2 10000000 100000000 200000000 5000

/-- A block that sends the Stop frame of ChipA and has sent `n` bytes of it. -/
def sendingStop (n : Nat) (ack : Bool) : State :=
  { State.reset with
    regs := toneRegs 1 0 0 0
    eng := { Engine.reset with
      cmdLast := 0xFF, st := .send, expectAck := ack, frame := zeroFill [0xAD, 0x01, 0xFF, 0xAD], flen := 4
      txcount := n, tlimit := 3 }
    txOut := [0xAD, 0x01, 0xFF, 0xAD].take n }

/-- A block in the window of that Stop, with `n` ticks counted, limit `lim`, and the bytes `a`, `b` received so far. -/
def waiting (ack : Vector Byte 3) (cnt n : Nat) (lim : Word) : State :=
  { sendingStop 4 true with
    eng := { (sendingStop 4 true).eng with
      st := .waitAck, ack := ack, ackcnt := cnt, tcount := BitVec.ofNat 32 n, tlimit := lim } }

/-! Syntax, decoding, encoding -/

theorem test_illegal_1_refused : ¬ (Instr.illegal 0x00000001).WellFormed := by decide
theorem test_illegal_2_refused : ¬ (Instr.illegal 0x00000002).WellFormed := by decide
theorem test_illegal_ff_refused : ¬ (Instr.illegal 0x000000FF).WellFormed := by decide
theorem test_illegal_1ff_refused : (Instr.illegal 0x000001FF).wellFormed = false := by decide
theorem test_illegal_3_accepted : (Instr.illegal 0x00000003).WellFormed := by decide

/-- 30 R82: the four rows, bit 31 first; OP in bits 7:0, NOACK in bit 8. -/
theorem test_decode_tone : decode 0b00000000000000000000000000000001 = .tone := by decide
theorem test_decode_sweep : decode 0b00000000000000000000000000000010 = .sweep := by decide
theorem test_decode_stop : decode 0b00000000000000000000000011111111 = .stop := by decide
theorem test_decode_stopNoack : decode 0b00000000000000000000000111111111 = .stopNoack := by decide
/-- 95 V-C4 and V-C8. -/
theorem test_decode_noack_tone : decode 0x00000101 = .illegal 0x00000101 := by decide
theorem test_decode_reserved_bit : decode 0x800000FF = .illegal 0x800000FF := by decide
theorem test_encode_words :
    encode .tone = 0x1 ∧ encode .sweep = 0x2 ∧ encode .stop = 0xFF ∧ encode .stopNoack = 0x1FF := by decide
theorem test_table_word : decodeTableWord 32 0x1FF = some .stopNoack ∧ decodeTableWord 8 1 = some .tone := by decide

/-! Frames: 95 L2 -/

theorem test_vT1 : encodesTo params .tone vT1
    [0xAD, 0x02, 0x01, 0x01, 0x03, 0xD0, 0x90, 0x00, 0x88, 0xB8, 0x54] = true := by decide
theorem test_vR1 : encodesTo params .tone (toneRegs 1 0 1677721549 16777215499)
    [0xAD, 0x01, 0x01, 0x04, 0xFF, 0xFF, 0xFF, 0xFF, 0xFF, 0xFF, 0xAD] = true := by decide
theorem test_vR2 : rejects .tone (toneRegs 1 0 0 16777215500) = true := by decide
theorem test_vR4 : rejects .tone (toneRegs 1 0 1677721550 0) = true := by decide
theorem test_vQ1 : encodesTo params .tone (toneRegs 1 0 250 1500)
    [0xAD, 0x01, 0x01, 0x04, 0x00, 0x00, 0x02, 0x00, 0x00, 0x02, 0xB7] = true := by decide
theorem test_vQ2 : encodesTo params .tone (toneRegs 1 0 350 2500)
    [0xAD, 0x01, 0x01, 0x04, 0x00, 0x00, 0x04, 0x00, 0x00, 0x02, 0xB9] = true := by decide
/-- 95, the note on HALF_UP below V-D3. -/
theorem test_vQ2_halfUp : encodesTo { params with roundTies := .halfUp } .tone (toneRegs 1 0 350 2500)
    [0xAD, 0x01, 0x01, 0x04, 0x00, 0x00, 0x04, 0x00, 0x00, 0x03, 0xBA] = true := by decide
theorem test_vS1 : encodesTo params .sweep vS1
    [0xAD, 0x01, 0x02, 0x02, 0x01, 0x86, 0xA0, 0x01, 0x86, 0xA0, 0x03, 0x0D, 0x40, 0x00, 0x13, 0x88, 0x01, 0xEC] =
      true := by decide
theorem test_vS2 : encodesTo params .sweep (sweepRegs 2 0 25000000 4400000000 35000000 1000000)
    [0xAD, 0x02, 0x02, 0x04, 0x03, 0xD0, 0x90, 0x43, 0x23, 0x80, 0x00, 0x88, 0xB8, 0x0F, 0x42, 0x40, 0x01, 0xD0] =
      true := by decide
theorem test_vS5 : rejects .sweep (sweepRegs 1 3 0 0 0 16777216) = true := by decide
theorem test_vS8 : rejects .sweep (sweepRegs 1 0 10000000 0 16777215500 1) = true := by decide
/-- 95 V-P3: Stop reads no frequency and no clock. -/
theorem test_vP3 : encodesTo params .stop { toneRegs 1 0 0xFFFFFFFF 0 with f0Hi := 0xFFFFFFFF }
    [0xAD, 0x01, 0xFF, 0xAD] = true := by decide
theorem test_vP4 : encodesTo params .stopNoack (toneRegs 2 0 0 0)
    [0xAD, 0x02, 0xFF, 0xAE] = true := by decide

/-! Commands: STATUS, FRAMEINFO and FRAMEBUF after the GO -/

theorem test_tone_status : nextIs (exec .tone (idleWith vT1)) (fun t =>
    readReg .status t = 0x0000000B && readReg .frameinfo t = 0x0000000B && readReg .framebuf1 t = 0x0090D003) = true := by
  decide
theorem test_sweep_framebuf : nextIs (exec .sweep (idleWith vS1)) (fun t =>
    readReg .framebuf0 t = 0x020201AD && readReg .framebuf3 t = 0x88130040 && readReg .framebuf4 t = 0x0000EC01 &&
      readReg .frameinfo t = 0x00000012) = true := by decide
theorem test_sweep_step0 : nextIs (exec .sweep (idleWith (sweepRegs 1 3 0 0 0 0))) (fun t =>
    readReg .status t = 0x00000210 && readReg .frameinfo t = 0) = true := by decide
theorem test_stop_vP1 : nextIs (exec .stop (idleWith (toneRegs 1 0 0 0))) (fun t =>
    readReg .status t = 0x0000000B && readReg .framebuf0 t = 0xADFF01AD && readReg .frameinfo t = 4) = true := by decide
theorem test_stopNoack_vP4 : nextIs (exec .stopNoack (idleWith (toneRegs 2 0 0 0))) (fun t =>
    readReg .status t = 0x00000003 && t.eng.cmdLast = 0x1FF) = true := by decide
theorem test_stop_vP5 : nextIs (exec .stop State.reset) (fun t => readReg .status t = 0x00000210) = true := by decide
/-- 95, below V-C9: ERR_CMD beats ERR_PARAM. -/
theorem test_illegal_beats_param : nextIs (exec (.illegal 3) State.reset) (fun t =>
    readReg .status t = 0x00000110 && readReg .cmd t = 3) = true := by decide
/-- 95 V-X8: a command written in the window. -/
theorem test_busy_overrun : nextIs (exec .sweep (waiting #v[0, 0, 0] 0 0 3)) (fun t =>
    readReg .status t = 0x0001000D && readReg .cmd t = 0xFF) = true := by decide

/-! Host accesses: 95 V-H1 to V-H5, STATUS write-1-to-clear -/

theorem test_vH1 : faultOf (hostAccess ⟨.write 2, .byte, 0x08⟩ State.reset) =
    some (.hostError .width { State.reset with busResp := .error }) := by decide
theorem test_vH2 : faultOf (hostAccess ⟨.read, .word, 0x0A⟩ State.reset) =
    some (.hostError .misaligned { State.reset with busResp := .error }) := by decide
theorem test_vH3 : faultOf (hostAccess ⟨.read, .word, 0x38⟩ State.reset) =
    some (.hostError .unmapped { State.reset with busResp := .error }) := by decide
theorem test_vH4 : nextIs (hostAccess ⟨.write 0x12345678, .word, 0x2C⟩ State.reset) (fun t =>
    t = { State.reset with busResp := .okay }) = true := by decide
theorem test_vH5 : nextIs (hostAccess ⟨.write 5, .word, 0x0C⟩ State.reset) (fun t => readReg .gain t = 1) = true := by
  decide
theorem test_w1c_done_only : nextIs (hostAccess ⟨.write 0x00000010, .word, 0x04⟩
    { State.reset with eng := { Engine.reset with done := true, expectAck := true, rxdisc := true } }) (fun t =>
    readReg .status t = 0x00020008) = true := by decide

/-! Exchange: 95 V-A1 to V-A5, V-X -/

theorem test_vA1 : nextIs (performEvent (.rxByte 0x13) (waiting #v[0xAD, 0x66, 0] 2 0 3)) (fun t =>
    readReg .status t = 0x00000018 && readReg .ackdata t = 0x031366AD) = true := by decide
theorem test_vA3 : nextIs (performEvent (.rxByte 0x14) (waiting #v[0xAD, 0x66, 0] 2 0 3)) (fun t =>
    readReg .status t = 0x00000518 && readReg .ackdata t = 0x031466AD) = true := by decide
theorem test_vA5 : nextIs (performEvent .tick (waiting #v[0xAD, 0x66, 0] 2 2 3)) (fun t =>
    readReg .status t = 0x00000318 && readReg .ackdata t = 0x020066AD && readReg .tcount t = 3) = true := by decide
theorem test_vX4_timeout0 : nextIs (performEvent .tick (waiting #v[0, 0, 0] 0 0 0)) (fun t =>
    readReg .status t = 0x00000318 && readReg .tcount t = 1) = true := by decide
theorem test_vX5b_linkErr : nextIs (performEvent .linkErr (waiting #v[0xAD, 0, 0] 1 0 3)) (fun t =>
    readReg .status t = 0x00000418 && readReg .ackdata t = 0x010000AD) = true := by decide
theorem test_vX7_early_byte : nextIs (performEvent (.rxByte 0x55) (sendingStop 0 true)) (fun t =>
    readReg .status t = 0x0002000B) = true := by decide
theorem test_vX9_last_byte : nextIs (performEvent .txAccept (sendingStop 3 false)) (fun t =>
    readReg .status t = 0x00000010 && t.txOut = [0xAD, 0x01, 0xFF, 0xAD] && readReg .tcount t = 0) = true := by decide
theorem test_vX1b_window : nextIs (performEvent .txAccept (sendingStop 3 true)) (fun t =>
    readReg .status t = 0x0000000D && readReg .frameinfo t = 0x00000404) = true := by decide
theorem test_vX10_reset : nextIs (performEvent .reset (sendingStop 2 true)) (fun t =>
    readReg .status t = 0 && readReg .timeout t = 0x000F4240 && readReg .devtype t = 0 && readReg .frameinfo t = 0 &&
      t.txOut = [0xAD, 0x01]) = true := by decide
/-- 20 R66: the reset of a cycle comes before its host write. -/
theorem test_order_reset_first :
    (nextEvent { rst := true, host := some ⟨.read, .word, 4⟩, tick := true }).map Prod.fst = some .reset := by decide
/-- A placed word runs as the next step, after reset: STOP fails with ERR_PARAM since DEVTYPE is 0. -/
theorem test_placed_word : nextIs (step (State.reset.withFetchWord 32 0xFF)) (fun t =>
    readReg .status t = 0x00000210 && readReg .cmd t = 0xFF) = true := by decide
/-- 30 R93: a branch on bit 0 of a kept STATUS of 1 is taken, of 0 is not. -/
theorem test_bnz : (match hostScriptStep [.halt, .bnz "s" 0 0] ⟨1, [("s", 0x0B)], false, State.reset⟩,
      hostScriptStep [.halt, .bnz "s" 0 0] ⟨1, [("s", 0x10)], false, State.reset⟩ with
    | .next a, .next b => a.pc = 0 && b.pc = 2
    | _, _ => false) = true := by decide
theorem test_script_read : (match hostScriptStep [.read .status "s"] ⟨0, [], false, sendingStop 0 true⟩ with
    | .next a => a.kept = [("s", 0x0000000B)] && a.block.inputs = []
    | _ => false) = true := by decide
/-- 10 R23. -/
theorem test_call_states : callState (sendingStop 0 true).eng = .sending ∧
    callState (waiting #v[0, 0, 0] 0 0 3).eng = .frameSent ∧ callState Engine.reset = .idle ∧
    callState { Engine.reset with done := true } = .acked ∧
    callState { Engine.reset with done := true, err := 4 } = .failed := by decide

/-! Witnesses: a state and operands that meet a statement's hypotheses -/

theorem witness_CommandWordRoundTrip : (Instr.illegal 0).WellFormed ∧ (Instr.illegal 0xFFFFFFFF).WellFormed := by decide
/-- Ties under each divisor. -/
theorem witness_RndIsNearest : 2 * (250 % 100) = 100 ∧ 2 * (1500 % 1000) = 1000 := by decide
theorem witness_Be3 : (16777215 : Nat) ≤ 16777215 ∧ be3 16777215 = [0xFF, 0xFF, 0xFF] := by decide
/-- Each command has registers that encode. -/
theorem witness_encoded_frames :
    (encodeFrame params .tone vT1).toOption.isSome = true ∧ (encodeFrame params .sweep vS1).toOption.isSome = true ∧
    (encodeFrame params .stop vT1).toOption.isSome = true ∧
    (encodeFrame params .stopNoack vT1).toOption.isSome = true := by decide
theorem witness_ScaleLaw :
    nextIs (exec .tone (idleWith vT1)) (fun t => t.eng.st = .send) = true ∧
    nextIs (exec .sweep (idleWith vS1)) (fun t => t.eng.st = .send && t.eng.cmdLast = 2) = true := by decide
theorem witness_EncodeReadsOnly : (toneRegs 1 0 0 0).devtype = (sweepRegs 1 3 5 6 7 8).devtype ∧
    toneRegs 1 0 0 0 ≠ sweepRegs 1 3 5 6 7 8 := by decide
/-- Boundary operands: both fields at FIELD_MAX (95 V-R1), device 1; and device 2 (95 V-T1). -/
theorem witness_ToneLatches :
    (idleWith (toneRegs 1 0 1677721549 16777215499)).eng.st = .idle ∧
    rnd .halfEven (toneRegs 1 0 1677721549 16777215499).refclk.toNat 100 ≤ 16777215 ∧
    rnd .halfEven (toneRegs 1 0 1677721549 16777215499).f0 1000 ≤ 16777215 ∧ vT1.devtype = 2 := by decide
/-- Steps 1 and 16,777,215 (95 V-S4, V-S3). -/
theorem witness_SweepLatches :
    (sweepRegs 1 3 0 0 0 16777215).devtype = 1 ∧ (sweepRegs 1 3 0 0 0 16777215).step.toNat ≤ 16777215 ∧
    1 ≤ (sweepRegs 2 1 100000000 35000000 35000000 1).step.toNat ∧
    rnd .halfEven (sweepRegs 2 1 100000000 35000000 35000000 1).f1 1000 ≤ 16777215 ∧
    rnd .halfEven (sweepRegs 2 1 100000000 35000000 35000000 1).f0 1000 ≤ 16777215 ∧
    rnd .halfEven (sweepRegs 2 1 100000000 35000000 35000000 1).refclk.toNat 100 ≤ 16777215 := by decide
theorem witness_StopAndStopNoack : (idleWith vT1).eng.st = .idle ∧ vT1.devtype = 2 ∧ vS1.devtype = 1 := by decide
theorem witness_IllegalWord : State.reset.eng.st = .idle ∧
    (0x00000101 : Word) ∉ [(0x00000001 : Word), 0x00000002, 0x000000FF, 0x000001FF] := by decide
/-- 10 R34, R35: F0 = 2^32 + 5 with HI 1 and LO 5, F1 = 7 * 2^32 + 1. -/
theorem test_f0_f1_halves :
    Regs.f0 { Regs.reset with f0Hi := 1, f0Lo := 5 } = 4294967301 ∧
    Regs.f1 { Regs.reset with f1Hi := 7, f1Lo := 1 } = 30064771073 := by decide
/-- Each clause of a parameter error, at its boundary (95 V-D1, V-R4, V-R2, V-S8, V-S6, V-S5, V-P5). -/
theorem witness_ParameterError :
    ParamError .tone (toneRegs 0 0 0 0) ∧ ParamError .tone (toneRegs 1 0 1677721550 0) ∧
    ParamError .tone (toneRegs 1 0 0 16777215500) ∧ ParamError .sweep (sweepRegs 1 0 10000000 0 16777215500 1) ∧
    ParamError .sweep (sweepRegs 1 3 0 0 0 0) ∧ ParamError .sweep (sweepRegs 1 3 0 0 0 16777216) ∧
    ParamError .stop (toneRegs 3 0 0 0) ∧ ParamError .stopNoack (toneRegs 255 0 0 0) := by
  unfold ParamError; decide
theorem witness_busy : (sendingStop 0 true).eng.st ≠ .idle ∧ (waiting #v[0, 0, 0] 0 0 3).eng.st ≠ .idle := by decide
theorem witness_idle : State.reset.eng.st = .idle ∧ (idleWith vS1).eng.st = .idle := by decide
theorem witness_CommandsKeepEverythingElse :
    nextIs (exec .tone (idleWith vT1)) (fun _ => true) = true ∧
    nextIs (exec .tone (sendingStop 0 true)) (fun _ => true) = true := by decide
theorem witness_ParameterReadsBack : Reg.devtype ≠ .cmd ∧ Reg.devtype ≠ .status ∧ Reg.devtype.readOnly = false ∧
    nextIs (hostAccess ⟨.write 0x1FF, .word, Reg.devtype.offset⟩ State.reset) (fun t => readReg .devtype t = 0xFF) = true := by
  decide
theorem witness_ReadOnlyWrites : (0x50 : BitVec 7) ∈ [(0x2C : BitVec 7), 0x30, 0x34, 0x40, 0x44, 0x48, 0x4C, 0x50] := by
  decide
theorem witness_NarrowOrMisaligned : AccessWidth.half ≠ .word ∧ (0x7F : BitVec 7).toNat % 4 ≠ 0 := by decide
theorem witness_Unmapped : (0x38 : BitVec 7).toNat % 4 = 0 ∧ (0x3C : BitVec 7).toNat % 4 = 0 ∧
    (0x54 : BitVec 7).toNat % 4 = 0 ∧ 0x54 ≤ (0x7C : BitVec 7).toNat ∧ (0x7C : BitVec 7).toNat % 4 = 0 := by decide
theorem witness_AckdataAndFrameinfo : (waiting #v[0xAD, 0x66, 0] 2 0 3).eng.ackcnt ≤ 3 ∧
    (sendingStop 4 true).eng.txcount ≤ 18 ∧ (sendingStop 4 true).eng.flen ≤ 18 := by decide
theorem witness_WindowIs128Bytes : ∃ addr off, windowOffset addr = some off :=
  ⟨busAddress 0, 0, by simp [windowOffset, busAddress]⟩
theorem witness_TxHandshake : (sendingStop 0 true).eng.st = .send ∧ State.reset.eng.st ≠ .send ∧
    (sendingStop 3 true).eng.txcount < (sendingStop 3 true).eng.flen ∧
    (sendingStop 0 true).eng.txcount + 1 < (sendingStop 0 true).eng.flen ∧
    (sendingStop 2 true).eng.txcount + 1 < (sendingStop 2 true).eng.flen := by decide
theorem witness_LastHandshake : (sendingStop 3 true).eng.txcount + 1 = (sendingStop 3 true).eng.flen ∧
    (sendingStop 3 false).eng.txcount + 1 = (sendingStop 3 false).eng.flen ∧
    (sendingStop 3 false).eng.st = .send := by decide
/-- A parameter write while the byte waits. -/
theorem witness_TxPortHolds : nextIs (step { sendingStop 1 true with
      inputs := [{ host := some ⟨.write 2, .word, 0x08⟩ }] }) (fun t =>
    txValid t.eng && t.regs.devtype = 2 && txData t.eng = some 0x01) = true ∧
    pendingEvent { sendingStop 1 true with inputs := [{ host := some ⟨.write 2, .word, 0x08⟩ }] }
      ≠ some .txAccept := by decide
theorem witness_EarlyAckBytes : (waiting #v[0, 0, 0] 0 0 3).eng.st = .waitAck ∧
    (waiting #v[0xAD, 0, 0] 1 0 3).eng.ackcnt + 1 < 3 := by decide
theorem witness_ThirdAckByte : (waiting #v[0xAD, 0x66, 0] 2 0 3).eng.st = .waitAck ∧
    (waiting #v[0xAD, 0x66, 0] 2 0 3).eng.ackcnt = 2 := by decide
/-- The three clauses: outside the window; below the limit; at the limit, TIMEOUT 0 included. -/
theorem witness_Tick : (sendingStop 0 true).eng.st ≠ .waitAck ∧
    (waiting #v[0, 0, 0] 0 1 3).eng.tcount.toNat + 1 < (waiting #v[0, 0, 0] 0 1 3).eng.tlimit.toNat ∧
    (waiting #v[0, 0, 0] 0 2 3).eng.tlimit.toNat ≤ (waiting #v[0, 0, 0] 0 2 3).eng.tcount.toNat + 1 ∧
    (waiting #v[0, 0, 0] 0 0 0).eng.tlimit.toNat ≤ (waiting #v[0, 0, 0] 0 0 0).eng.tcount.toNat + 1 := by decide
/-- DONE rises at a rejected GO and at the last handshake of STOP_NOACK; it falls at a GO and at a W1C. -/
theorem witness_Done :
    nextIs (step (State.reset.withFetchWord 32 3)) (fun t => t.eng.done) = true ∧
    nextIs (step { sendingStop 3 false with inputs := [{ txReady := true }] }) (fun t => t.eng.done) = true ∧
    nextIs (step { State.reset with
      regs := vT1, eng := { Engine.reset with done := true }, inputs := [commandCycle 1] })
      (fun t => !t.eng.done) = true ∧
    nextIs (step { State.reset with
      eng := { Engine.reset with done := true }, inputs := [{ host := some ⟨.write 0x10, .word, 0x04⟩ }] })
      (fun t => !t.eng.done) = true := by decide
/-- ERR changes by a rejected GO, an accepted GO (5 to 0), a timeout and reset; other host accesses answer and keep it. -/
theorem witness_ErrChanges :
    nextIs (step (State.reset.withFetchWord 32 3)) (fun t => t.eng.st = .idle && t.eng.err = 1) = true ∧
    nextIs (step { State.reset with
      regs := vT1, eng := { Engine.reset with done := true, err := 5 }, inputs := [commandCycle 1] })
      (fun t => t.eng.st = .send && t.eng.err = 0) = true ∧
    nextIs (step { waiting #v[0, 0, 0] 0 2 3 with inputs := [{ tick := true }] }) (fun t => t.eng.err = 3) = true ∧
    nextIs (step { State.reset with
      eng := { Engine.reset with done := true, err := 5 }, inputs := [{ rst := true }] }) (fun t => t.eng.err = 0) = true := by
  decide
theorem witness_ErrKept :
    nextIs (step { State.reset with
      eng := { Engine.reset with done := true, err := 5 }
      inputs := [{ host := some ⟨.write 0xFFFFFFFF, .word, 0x04⟩ }] }) (fun t => t.eng.err = 5) = true ∧
    nextIs (step { State.reset with
      eng := { Engine.reset with done := true, err := 5 }
      inputs := [{ host := some ⟨.read, .word, 0x00⟩ }] }) (fun t => t.eng.err = 5) = true ∧
    nextIs (step ((sendingStop 0 true).withFetchWord 32 1)) (fun t => t.eng.err = 0) = true := by decide
/-- OVERRUN and RXDISC rise and fall. -/
theorem witness_Sticky :
    nextIs (step ((sendingStop 0 true).withFetchWord 32 1)) (fun t => t.eng.overrun) = true ∧
    nextIs (step { State.reset with inputs := [{ rx := some 0x55 }] }) (fun t => t.eng.rxdisc) = true ∧
    nextIs (step { State.reset with
      eng := { Engine.reset with overrun := true, rxdisc := true }
      inputs := [{ host := some ⟨.write 0x00030000, .word, 0x04⟩ }] })
      (fun t => !t.eng.overrun && !t.eng.rxdisc) = true := by decide
theorem witness_StepRunsTheDecodedCommand :
    (State.reset.withFetchWord 32 1).inputs = [commandCycle 1] ∧ (commandCycle 1).rst = false ∧
    (commandCycle 1).host = some ⟨.write 1, .word, 0x00⟩ := by decide
/-- The premise of the tie statement, with a tick that would expire the window by itself. -/
theorem witness_ThirdAckByteBeatsTheTick :
    (waiting #v[0xAD, 0x66, 0] 2 2 3).eng.st = .waitAck ∧ (waiting #v[0xAD, 0x66, 0] 2 2 3).eng.ackcnt = 2 ∧
    (waiting #v[0xAD, 0x66, 0] 2 2 3).eng.tlimit.toNat ≤ (waiting #v[0xAD, 0x66, 0] 2 2 3).eng.tcount.toNat + 1 := by
  decide
/-- States other than reset that meet the invariant: sending, and in the window with two bytes. -/
theorem witness_Inv_sending : (sendingStop 2 true).Inv :=
  ⟨⟨by decide, by decide, by decide, by decide, by decide, by decide⟩, by decide⟩
theorem witness_Inv_waiting : (waiting #v[0xAD, 0x66, 0] 2 2 3).Inv :=
  ⟨⟨by decide, by decide, by decide, by decide, by decide, by decide⟩, by decide⟩
theorem witness_EveryStepKeeps :
    nextIs (step { sendingStop 2 true with inputs := [{ txReady := true }] }) (fun t => t.eng.txcount = 3) = true ∧
    faultOf (step { sendingStop 2 true with inputs := [{ host := some ⟨.read, .word, 0x38⟩ }] }) ≠ none := by decide
theorem witness_BusyEnds :
    nextIs (step { waiting #v[0, 0, 0] 0 2 3 with inputs := [{ tick := true }] }) (fun t => t.eng.st = .idle) = true ∧
    nextIs (step { waiting #v[0, 0, 0] 0 2 3 with inputs := [{ rst := true }] }) (fun t => t.eng.st = .idle) = true := by
  decide
theorem witness_AcceptedCommandIsImmutable :
    nextIs (step ((sendingStop 0 true).withFetchWord 32 2)) (fun _ => true) = true ∧
    pendingEvent ((sendingStop 0 true).withFetchWord 32 2) ≠ some .reset := by decide
theorem witness_StalledSink : (∀ c ∈ [commandCycle 1, { tick := true }],
      c.rst = false ∧ c.linkErr = false ∧ c.txReady = false) ∧
    nextIs (stepMany 3 { sendingStop 1 true with inputs := [commandCycle 1, { tick := true }] })
      (fun t => t.eng.st = .send) = true := by decide
theorem witness_WholeFrameLeaves_inv : (sendingStop 2 false).Inv :=
  ⟨⟨by decide, by decide, by decide, by decide, by decide, by decide⟩, by decide⟩
theorem witness_WholeFrameLeaves_inputs :
    ({ sendingStop 2 false with inputs := List.replicate 2 { txReady := true } } : State).inputs =
      List.replicate ((sendingStop 2 false).eng.flen - (sendingStop 2 false).eng.txcount) { txReady := true } ++ [] := by
  decide
theorem witness_WindowExpires : (waiting #v[0, 0, 0] 0 0 3).eng.tcount = 0 ∧
    3 ≤ max (waiting #v[0, 0, 0] 0 0 3).eng.tlimit.toNat 1 ∧ 1 ≤ max (waiting #v[0, 0, 0] 0 0 0).eng.tlimit.toNat 1 := by
  decide
/-- The third statement of a script. -/
theorem witness_ScriptCommand : Instr.tone.WellFormed ∧
    [Stmt.envTick 1, .halt, commandStmt .tone, .halt][2]? = some (commandStmt .tone) := by decide
/-- 30 R93: `HALT` ends a script, and an ended script stays as it is. -/
theorem test_halt : (match hostScriptStep [.halt] ⟨0, [], false, State.reset⟩ with
    | .next a => a.halted && a.pc = 0
    | _ => false) = true ∧
    (match hostScriptStep [.envReset] ⟨0, [], true, sendingStop 1 true⟩ with
    | .next a => a.pc = 0 && a.block = sendingStop 1 true
    | _ => false) = true := by decide

end Sys2Proof.Tests
end

section
/-! SUPPORT. What an event leaves of the engine's flags and of the accepted command, said once for the commands, once for
the four exchange events, and once for a step (10 R24 to R27, R42). -/

namespace Sys2Proof.Machine

/-! The end of a GO (41 R140) -/

@[simp] theorem afterPrologue_cmdLast (i : Instr) (r : Regs) (e : Engine) :
    (afterPrologue i r e).cmdLast = e.cmdLast := by
  rcases afterPrologue_cases i r e with ⟨-, h⟩ | h | ⟨c, bytes, -, h⟩ <;> simp [h]

@[simp] theorem afterPrologue_overrun (i : Instr) (r : Regs) (e : Engine) :
    (afterPrologue i r e).overrun = e.overrun := by
  rcases afterPrologue_cases i r e with ⟨-, h⟩ | h | ⟨c, bytes, -, h⟩ <;> simp [h]

@[simp] theorem afterPrologue_rxdisc (i : Instr) (r : Regs) (e : Engine) :
    (afterPrologue i r e).rxdisc = e.rxdisc := by
  rcases afterPrologue_cases i r e with ⟨-, h⟩ | h | ⟨c, bytes, -, h⟩ <;> simp [h]

/-- TIMEOUT is sampled by an accepted GO alone (10 R33). -/
theorem afterPrologue_tlimit (i : Instr) (r : Regs) (e : Engine) :
    (afterPrologue i r e).tlimit = e.tlimit ∨ (afterPrologue i r e).tlimit = r.timeout := by
  rcases afterPrologue_cases i r e with ⟨-, h⟩ | h | ⟨c, bytes, -, h⟩
  · exact .inl (by rw [h, reject_tlimit])
  · exact .inl (by rw [h, reject_tlimit])
  · exact .inr (by rw [h, accept_tlimit])

/-- A GO sends with DONE and ERR as its prologue left them, or completes with ERR_CMD or ERR_PARAM. -/
theorem afterPrologue_result (i : Instr) (r : Regs) (e : Engine) :
    ((afterPrologue i r e).st = .send ∧ (afterPrologue i r e).done = e.done ∧ (afterPrologue i r e).err = e.err) ∨
      ((afterPrologue i r e).st = .idle ∧ (afterPrologue i r e).done = true ∧
        ((afterPrologue i r e).err = 1 ∨ (afterPrologue i r e).err = 2)) := by
  rcases afterPrologue_cases i r e with ⟨-, h⟩ | h | ⟨c, bytes, -, h⟩
  · exact .inr (by simp [h, ErrorCode.code])
  · exact .inr (by simp [h, ErrorCode.code])
  · exact .inl (by simp [h])

/-! The exchange events (42 R160) -/

/-- `e'` has DONE and ERR as `e` has them, or is the completion, with one of the four codes of 42 R178, of the command
that `e` has in progress. -/
abbrev Engine.ResultKeptOrCompleted (e e' : Engine) : Prop :=
  (e'.done = e.done ∧ e'.err = e.err) ∨
    (e.st ≠ .idle ∧ e'.st = .idle ∧ e'.done = true ∧ (e'.err = 0 ∨ e'.err = 3 ∨ e'.err = 4 ∨ e'.err = 5))

/-- What every exchange event keeps: the accepted command, OVERRUN, and DONE with ERR unless it completes the command. -/
structure Engine.ExchangeKeeps (e e' : Engine) : Prop where
  frame     : e'.frame = e.frame
  flen      : e'.flen = e.flen
  tlimit    : e'.tlimit = e.tlimit
  expectAck : e'.expectAck = e.expectAck
  cmdLast   : e'.cmdLast = e.cmdLast
  overrun   : e'.overrun = e.overrun
  result    : e.ResultKeptOrCompleted e'

theorem exchangeKeeps_refl (e : Engine) : e.ExchangeKeeps e := ⟨rfl, rfl, rfl, rfl, rfl, rfl, .inl ⟨rfl, rfl⟩⟩

/-- Completing a command in progress keeps what its engine kept so far. -/
theorem exchangeKeeps_complete {e e' : Engine} {c : ErrorCode} (h : e.ExchangeKeeps e') (hbusy : e.st ≠ .idle)
    (hc : c ≠ .cmd ∧ c ≠ .param) : e.ExchangeKeeps (complete c e') where
  frame := h.frame
  flen := h.flen
  tlimit := h.tlimit
  expectAck := h.expectAck
  cmdLast := h.cmdLast
  overrun := h.overrun
  result := .inr ⟨hbusy, rfl, rfl, by cases c <;> simp_all [ErrorCode.code]⟩

theorem exchangeKeeps_linkErrEvent (e : Engine) : e.ExchangeKeeps (linkErrEvent e) := by
  rcases linkErrEvent_cases e with ⟨hbusy, h⟩ | ⟨-, h⟩ <;> rw [h]
  · exact exchangeKeeps_complete (exchangeKeeps_refl e) hbusy (by decide)
  · exact exchangeKeeps_refl e

theorem exchangeKeeps_tickEvent (e : Engine) : e.ExchangeKeeps (tickEvent e) := by
  have hcount : e.ExchangeKeeps { e with tcount := e.tcount + 1 } := ⟨rfl, rfl, rfl, rfl, rfl, rfl, .inl ⟨rfl, rfl⟩⟩
  rcases tickEvent_cases e with ⟨-, -, h⟩ | ⟨hst, -, h⟩ | ⟨-, h⟩ <;> rw [h]
  · exact hcount
  · exact exchangeKeeps_complete hcount (by simp [hst]) (by decide)
  · exact exchangeKeeps_refl e

theorem exchangeKeeps_rxByte (b : Byte) (e : Engine) : e.ExchangeKeeps (rxByte b e) := by
  have hstore : e.ExchangeKeeps (storeAck b e) := ⟨rfl, rfl, rfl, rfl, rfl, rfl, .inl ⟨rfl, rfl⟩⟩
  rcases rxByte_cases b e with ⟨-, -, h⟩ | ⟨hst, -, h⟩ | ⟨-, -, h⟩ | ⟨-, h⟩ <;> rw [h]
  · exact hstore
  · refine exchangeKeeps_complete hstore (by simp [hst]) ?_
    rcases ackVerdict_cases (storeAck b e) with hv | hv <;> simp [hv]
  · exact exchangeKeeps_refl e
  · exact ⟨rfl, rfl, rfl, rfl, rfl, rfl, .inl ⟨rfl, rfl⟩⟩

theorem exchangeKeeps_txAccept (s : State) : s.eng.ExchangeKeeps (txAccept s).eng := by
  have hemit : s.eng.ExchangeKeeps (emitByte s).eng := ⟨rfl, rfl, rfl, rfl, rfl, rfl, .inl ⟨rfl, rfl⟩⟩
  rcases txAccept_cases s with ⟨-, -, h⟩ | ⟨hst, -, h⟩ | ⟨-, h⟩ <;> rw [h]
  · exact hemit
  · rcases afterLastByte_cases (emitByte s).eng with ⟨-, h⟩ | ⟨-, h⟩ <;> simp only [h]
    · exact ⟨rfl, rfl, rfl, rfl, rfl, rfl, .inl ⟨rfl, rfl⟩⟩
    · exact exchangeKeeps_complete hemit (by simp [hst]) (by decide)
  · exact exchangeKeeps_refl s.eng

/-! RXDISC, which a received byte alone can set (10 R27) -/

@[simp] theorem linkErrEvent_rxdisc (e : Engine) : (linkErrEvent e).rxdisc = e.rxdisc := by
  rcases linkErrEvent_cases e with ⟨-, h⟩ | ⟨-, h⟩ <;> simp [h]

@[simp] theorem tickEvent_rxdisc (e : Engine) : (tickEvent e).rxdisc = e.rxdisc := by
  rcases tickEvent_cases e with ⟨-, -, h⟩ | ⟨-, -, h⟩ | ⟨-, h⟩ <;> simp [h]

@[simp] theorem txAccept_rxdisc (s : State) : (txAccept s).eng.rxdisc = s.eng.rxdisc := by
  rcases txAccept_cases s with ⟨-, -, h⟩ | ⟨-, -, h⟩ | ⟨-, h⟩
  · simp [h]
  · rcases afterLastByte_cases (emitByte s).eng with ⟨-, h'⟩ | ⟨-, h'⟩ <;> simp [h, h']
  · rw [h]

/-- A received byte keeps RXDISC, or sets it outside the window. -/
theorem rxByte_rxdisc (b : Byte) (e : Engine) :
    (rxByte b e).rxdisc = e.rxdisc ∨ (e.st ≠ .waitAck ∧ (rxByte b e).rxdisc = true) := by
  rcases rxByte_cases b e with ⟨-, -, h⟩ | ⟨-, -, h⟩ | ⟨-, -, h⟩ | ⟨hst, h⟩
  · exact .inl (by simp [h])
  · exact .inl (by simp [h])
  · exact .inl (by rw [h])
  · exact .inr ⟨hst, by rw [h]⟩

/-! A step -/

/-- What a step can do to the engine, in the terms of the flags: nothing, reset, a GO, a refused CMD write, a STATUS
write, or an exchange event. -/
inductive EngineStep (s t : State) : Prop where
  | kept (hev : ∀ w, pendingEvent s ≠ some (.host ⟨.write w, .word, 0x00⟩)) (heng : t.eng = s.eng)
  | reset (hev : pendingEvent s = some .reset) (heng : t.eng = Engine.reset)
  | go (w : Word) (hev : pendingEvent s = some (.host ⟨.write w, .word, 0x00⟩)) (hidle : s.eng.st = .idle)
      (heng : t.eng = afterPrologue (decode w) s.regs (goPrologue (encode (decode w)) s.eng))
  | overrun (w : Word) (hev : pendingEvent s = some (.host ⟨.write w, .word, 0x00⟩)) (hbusy : s.eng.st ≠ .idle)
      (heng : t.eng = overrunWrite s.eng)
  | status (w : Word) (hev : pendingEvent s = some (.host ⟨.write w, .word, 0x04⟩))
      (heng : t.eng = statusWrite w s.eng)
  | exchange (hev : ∀ a, pendingEvent s ≠ some (.host a)) (hkeeps : s.eng.ExchangeKeeps t.eng)
      (hrx : t.eng.rxdisc = s.eng.rxdisc ∨
        (s.eng.st ≠ .waitAck ∧ t.eng.rxdisc = true ∧ ∃ b, pendingEvent s = some (.rxByte b)))

theorem engineStep_of_step {s t : State} (h : step s = .next t) : EngineStep s t := by
  rcases step_engine_cases s t h with ⟨heng, -, hev⟩ | ⟨hev, heng, -, -⟩ | ⟨w, hev, -, -, heng⟩ | ⟨w, hev, -, -, heng⟩ |
    ⟨hev, -, -, heng⟩ | ⟨hev, -, -, heng⟩ | ⟨b, hev, -, -, heng⟩ | ⟨hev, -, -, heng⟩
  · exact .kept hev heng
  · exact .reset hev heng
  · by_cases hst : s.eng.st = .idle
    · exact .go w hev hst (by rw [heng, if_pos hst])
    · exact .overrun w hev hst (by rw [heng, if_neg hst])
  · exact .status w hev heng
  · exact .exchange (by simp [hev]) (heng ▸ exchangeKeeps_linkErrEvent _) (.inl (by rw [heng, linkErrEvent_rxdisc]))
  · exact .exchange (by simp [hev]) (heng ▸ exchangeKeeps_txAccept _) (.inl (by rw [heng, txAccept_rxdisc]))
  · refine .exchange (by simp [hev]) (heng ▸ exchangeKeeps_rxByte b _) ?_
    exact (rxByte_rxdisc b s.eng).imp (heng ▸ ·) fun ⟨hst, hset⟩ => ⟨hst, heng ▸ hset, b, hev⟩
  · exact .exchange (by simp [hev]) (heng ▸ exchangeKeeps_tickEvent _) (.inl (by rw [heng, tickEvent_rxdisc]))

/-! The obligations about commands and flags -/

/-- Settles O20: a command is one engine update, of a GO or of an overrun. -/
theorem commandsKeepEverythingElse : Obligations.CommandsKeepEverythingElse := by
  unfold Obligations.CommandsKeepEverythingElse
  intro i s t h
  rw [exec_next] at h
  injection h with h
  subst h
  by_cases hst : s.eng.st = .idle
  · simpa [hst] using afterPrologue_tlimit i s.regs (goPrologue (encode i) s.eng)
  · simp [hst, overrunWrite]

/-- Settles O45, by the kinds of engine step. -/
theorem doneChangesOnlyByItsRule : Obligations.DoneChangesOnlyByItsRule := by
  unfold Obligations.DoneChangesOnlyByItsRule
  intro s t h
  cases engineStep_of_step h with
  | kept hev heng => simp_all
  | reset hev heng => simp_all [Engine.reset]
  | go w hev hidle heng =>
    refine ⟨fun _ hdone => ⟨?_, .inr ⟨w, hev⟩⟩, fun _ _ => .inr (.inl ⟨hidle, w, hev⟩)⟩
    rcases afterPrologue_result (decode w) s.regs (goPrologue (encode (decode w)) s.eng) with ⟨-, hd, -⟩ | ⟨hst, -⟩
    · rw [heng, hd] at hdone; simp at hdone
    · rw [heng, hst]
  | overrun w hev hbusy heng => simp_all
  | status w hev heng => exact ⟨by simp_all, fun _ _ => .inr (.inr ⟨w, by simp_all, hev⟩)⟩
  | exchange hev hkeeps hrx =>
    rcases hkeeps.result with ⟨hd, -⟩ | ⟨hbusy, hidle, hdone, -⟩
    · simp_all
    · exact ⟨fun _ _ => ⟨hidle, .inl hbusy⟩, fun _ hd => by simp_all⟩

/-- Settles O46, by the kinds of engine step. -/
theorem errChangesOnlyByItsRule : Obligations.ErrChangesOnlyByItsRule := by
  unfold Obligations.ErrChangesOnlyByItsRule
  intro s t h
  cases engineStep_of_step h with
  | kept hev heng => simp_all
  | reset hev heng => simp_all [Engine.reset]
  | go w hev hidle heng =>
    have hresult := afterPrologue_result (decode w) s.regs (goPrologue (encode (decode w)) s.eng)
    rw [← heng, goPrologue_err] at hresult
    refine ⟨fun _ => .inr (.inl ⟨hidle, w, hev⟩), fun _ _ _ => hresult.imp_left fun ⟨hst, _, herr⟩ => ⟨hst, herr⟩, ?_⟩
    intro a ha hother
    simp_all
  | overrun w hev hbusy heng => simp_all
  | status w hev heng => simp_all
  | exchange hev hkeeps hrx =>
    rcases hkeeps.result with ⟨-, herr⟩ | hcompleted
    · simp_all
    · exact ⟨fun _ => .inr (.inr hcompleted), fun w _ hw => absurd hw (hev _), fun a ha => absurd ha (hev a)⟩

/-- Settles O47, by the kinds of engine step. -/
theorem overrunChangesOnlyByItsRule : Obligations.OverrunChangesOnlyByItsRule := by
  unfold Obligations.OverrunChangesOnlyByItsRule
  intro s t h
  cases engineStep_of_step h with
  | kept hev heng => simp_all
  | reset hev heng => simp_all [Engine.reset]
  | go w hev hidle heng => simp_all
  | overrun w hev hbusy heng => exact ⟨fun _ _ => ⟨hbusy, w, hev⟩, by simp_all⟩
  | status w hev heng => exact ⟨by simp_all, fun _ _ => .inr ⟨w, by simp_all, hev⟩⟩
  | exchange hev hkeeps hrx => simp_all [hkeeps.overrun]

/-- Settles O48, by the kinds of engine step. -/
theorem rxdiscChangesOnlyByItsRule : Obligations.RxdiscChangesOnlyByItsRule := by
  unfold Obligations.RxdiscChangesOnlyByItsRule
  intro s t h
  cases engineStep_of_step h with
  | kept hev heng => simp_all
  | reset hev heng => simp_all [Engine.reset]
  | go w hev hidle heng => simp_all
  | overrun w hev hbusy heng => simp_all
  | status w hev heng => exact ⟨by simp_all, fun _ _ => .inr ⟨w, by simp_all, hev⟩⟩
  | exchange hev hkeeps hrx =>
    rcases hrx with hrx | ⟨hst, hset, hbyte⟩
    · simp_all
    · exact ⟨fun _ _ => ⟨hst, hbyte⟩, fun _ hd => by simp_all⟩

/-- Settles O56: while the engine is busy there is no GO, and every other event but reset keeps the accepted command. -/
theorem acceptedCommandIsImmutable : Obligations.AcceptedCommandIsImmutable := by
  unfold Obligations.AcceptedCommandIsImmutable
  intro s t hbusy h hreset
  cases engineStep_of_step h with
  | kept hev heng => simp [heng]
  | reset hev heng => exact absurd hev hreset
  | go w hev hidle heng => exact absurd hidle hbusy
  | overrun w hev hbusy heng => simp [heng]
  | status w hev heng => simp [heng]
  | exchange hev hkeeps hrx =>
    exact ⟨hkeeps.frame, hkeeps.flen, hkeeps.tlimit, hkeeps.expectAck, hkeeps.cmdLast⟩

end Sys2Proof.Machine
end

section
/-! SUPPORT. What the registers of the window read, field by field, and what a write to each of them does (10 R20 to
R45, 20 R60 to R65). -/

namespace Sys2Proof.Machine

/-! Joined fields (20 R69). The lemmas that read a field of joined ones go to `simp` as `↓`: they cut the word from its low
end before `simp` adds up the widths below. -/

theorem getLsbD_append_of_le {m n i : Nat} (x : BitVec m) (y : BitVec n) (h : n ≤ i) :
    (x ++ y).getLsbD i = x.getLsbD (i - n) := by
  rw [BitVec.getLsbD_append, if_neg (Nat.not_lt.mpr h)]

theorem getLsbD_append_of_lt {m n i : Nat} (x : BitVec m) (y : BitVec n) (h : i < n) :
    (x ++ y).getLsbD i = y.getLsbD i := by
  rw [BitVec.getLsbD_append, if_pos h]

theorem toNat_append_eq_add {m n : Nat} (x : BitVec m) (y : BitVec n) :
    (x ++ y).toNat = x.toNat * 2 ^ n + y.toNat := by
  rw [BitVec.toNat_append, ← Nat.shiftLeft_add_eq_or_of_lt y.isLt, Nat.shiftLeft_eq]

/-- The low bits of a word, cut out and widened again, are the word modulo a power of two. -/
theorem toNat_zeroExtend_low (w : Word) {k : Nat} (hk : k ≤ 32) :
    ((w.extractLsb' 0 k).zeroExtend 32).toNat = w.toNat % 2 ^ k := by
  rw [BitVec.toNat_setWidth_of_le hk, BitVec.extractLsb'_toNat, Nat.shiftRight_zero]

/-! The registers' fields -/

/-- Settles O21: each field is cut out of the joined fields of `statusWord`. -/
theorem statusReadsItsFields : Obligations.StatusReadsItsFields := by
  unfold Obligations.StatusReadsItsFields readReg statusWord
  intro s
  simp (disch := decide) [↓getLsbD_append_of_le, ↓getLsbD_append_of_lt, ↓BitVec.extractLsb'_append_eq_of_le,
    ↓BitVec.extractLsb'_append_eq_of_add_le, Engine.busy]
  cases s.eng.st <;> rfl

/-- ACKDATA holds the acknowledgement's lanes, the count, and 0 above (10 R37). -/
theorem ackdataWord_fields (e : Engine) :
    (∀ j : Fin 3, (ackdataWord e).extractLsb' (8 * j.val) 8 = ackLane e j) ∧
      (ackdataWord e).extractLsb' 24 2 = BitVec.ofNat 2 e.ackcnt ∧ (ackdataWord e).extractLsb' 26 6 = 0 := by
  unfold ackdataWord
  refine ⟨fun j => ?_, ?_, ?_⟩
  · fin_cases j <;> simp (disch := decide) [↓BitVec.extractLsb'_append_eq_of_le, ↓BitVec.extractLsb'_append_eq_of_add_le]
  · simp (disch := decide) [↓BitVec.extractLsb'_append_eq_of_le, ↓BitVec.extractLsb'_append_eq_of_add_le]
  · simp (disch := decide) [↓BitVec.extractLsb'_append_eq_of_le]

/-- FRAMEINFO as a number, for counts that fit their five bits (10 R38). -/
theorem frameinfoWord_toNat (e : Engine) (htx : e.txcount < 32) (hflen : e.flen < 32) :
    (frameinfoWord e).toNat = e.txcount * 256 + e.flen := by
  have h : (frameinfoWord e).toNat = ((0 * 2 ^ 5 + e.txcount % 2 ^ 5) * 2 ^ 3 + 0) * 2 ^ 5 + e.flen % 2 ^ 5 := by
    unfold frameinfoWord
    simp only [↓toNat_append_eq_add, BitVec.toNat_ofNat, BitVec.ofNat_eq_ofNat, Nat.zero_mod]
  omega

/-- Settles O29, from the fields of the two words; counts in their ranges lose no bits. -/
theorem ackdataAndFrameinfoReadTheirFields : Obligations.AckdataAndFrameinfoReadTheirFields := by
  unfold Obligations.AckdataAndFrameinfoReadTheirFields
  intro s hack htx hflen
  obtain ⟨hlane, hcount, hrest⟩ := ackdataWord_fields s.eng
  refine ⟨fun j => ?_, ?_, hrest, frameinfoWord_toNat s.eng (by omega) (by omega)⟩
  · rw [readReg, hlane j]
    simp [ackLane]
  · rw [readReg, hcount, BitVec.toNat_ofNat]
    omega

/-- Each byte lane of FRAMEBUFk is one lane of the frame (20 R69). -/
theorem framebufWord_lane (e : Engine) (k : Nat) (j : Fin 4) :
    (framebufWord e k).extractLsb' (8 * j.val) 8 = frameLane e (4 * k + j.val) := by
  unfold framebufWord
  fin_cases j <;> simp (disch := decide) [↓BitVec.extractLsb'_append_eq_of_le, ↓BitVec.extractLsb'_append_eq_of_add_le]

/-- Past the buffer a lane reads 0 (10 R41). -/
theorem frameLane_of_le {e : Engine} {i : Nat} (h : 18 ≤ i) : frameLane e i = 0 := by
  simp [frameLane, frameByte, h]

/-- Inside the buffer a lane reads its byte below FLEN, and 0 from there on (10 R41). -/
theorem frameLane_of_lt {e : Engine} {i : Nat} (h : i < 18) : frameLane e i = if i < e.flen then e.frame[i] else 0 := by
  simp [frameLane, frameByte, h]

theorem readReg_framebuf (s : State) (k : Fin 5) :
    readReg ([Reg.framebuf0, .framebuf1, .framebuf2, .framebuf3, .framebuf4][k]) s = framebufWord s.eng k := by
  fin_cases k <;> rfl

/-- Settles O30, lane by lane. -/
theorem framebufPacksTheFrame : Obligations.FramebufPacksTheFrame := by
  unfold Obligations.FramebufPacksTheFrame
  intro s j k
  rw [readReg_framebuf, framebufWord_lane]
  split_ifs with h hflen
  · rw [frameLane_of_lt h, if_pos hflen]
  · rw [frameLane_of_lt h, if_neg hflen]
  · exact frameLane_of_le (Nat.le_of_not_lt h)

/-! Writes -/

/-- A served write to a register other than CMD and STATUS stores its bits and nothing else (20 R63, R65). -/
theorem hostAccess_write_store {r : Reg} (hcmd : r ≠ .cmd) (hstatus : r ≠ .status) (w : Word) (s : State) :
    hostAccess ⟨.write w, .word, r.offset⟩ s = .next { s with regs := storeReg r w s.regs, busResp := .okay } := by
  rw [hostAccess_write]
  cases r <;> trivial

/-- A read-only register has no bits to store (10 R45). -/
theorem storeReg_readOnly {r : Reg} (h : r.readOnly = true) (w : Word) (p : Regs) : storeReg r w p = p := by
  cases r <;> trivial

/-- How many low bits of a written word a parameter register keeps (10 R30 to R36). -/
def Reg.definedBits : Reg → Nat
  | .devtype => 8
  | .gain => 2
  | _ => 32

/-- A parameter register reads its defined bits of the word stored last, its reserved bits 0 (10 R30 to R36). -/
theorem readReg_storeReg_same (s : State) (w : Word) {r : Reg} (hcmd : r ≠ .cmd) (hstatus : r ≠ .status)
    (hro : r.readOnly = false) (resp : BusResp) :
    (readReg r { s with regs := storeReg r w s.regs, busResp := resp }).toNat = w.toNat % 2 ^ r.definedBits := by
  have hw : w.toNat = w.toNat % 2 ^ 32 := (Nat.mod_eq_of_lt w.isLt).symm
  cases r with
  | devtype | gain => exact toNat_zeroExtend_low w (by decide)
  | refclk | timeout | f0Lo | f0Hi | f1Lo | f1Hi | step => exact hw
  | cmd => exact absurd rfl hcmd
  | status => exact absurd rfl hstatus
  | _ => cases hro

/-- Storing a parameter changes no other register's reading: the field that `r` stores is read by `r` alone, so each pair
of registers is equal or reads the same by computation. -/
theorem readReg_storeReg_of_ne (s : State) (w : Word) {q r : Reg} (h : q ≠ r) (resp : BusResp) :
    readReg q { s with regs := storeReg r w s.regs, busResp := resp } = readReg q s := by
  cases r <;> cases q <;> trivial

/-- Settles O25: a served parameter write is one `storeReg`. -/
theorem parameterReadsBackItsDefinedBits : Obligations.ParameterReadsBackItsDefinedBits := by
  unfold Obligations.ParameterReadsBackItsDefinedBits
  intro s t w r hcmd hstatus hro h
  rw [hostAccess_write_store hcmd hstatus] at h
  injection h with h
  subst h
  refine ⟨?_, fun q hq => readReg_storeReg_of_ne s w hq _⟩
  have hw : w.toNat % 2 ^ 32 = w.toNat := Nat.mod_eq_of_lt w.isLt
  rw [readReg_storeReg_same s w hcmd hstatus hro]
  cases r with
  | devtype | gain => rfl
  | _ => exact hw

/-- A write of 0 to STATUS names no flag (10 R29). -/
@[simp] theorem statusWrite_zero (e : Engine) : statusWrite 0 e = e := by simp [statusWrite]

/-- Settles O22: the served write is `statusWrite`, which masks each flag by its bit. -/
theorem statusWriteClearsWhatItNames : Obligations.StatusWriteClearsWhatItNames := by
  unfold Obligations.StatusWriteClearsWhatItNames
  intro s w
  have hwrite (v : Word) : hostAccess ⟨.write v, .word, 0x04⟩ s =
      .next { s with busResp := .okay, eng := statusWrite v s.eng } := hostAccess_write .status v s
  have hclear (flag bit : Bool) : (flag && !bit) = if bit = true then false else flag := by cases bit <;> simp
  exact ⟨by rw [hwrite]; simp only [statusWrite, hclear], by rw [hwrite, statusWrite_zero]⟩

/-- Settles O24: `storeReg`, register by register. -/
theorem parameterWritesStoreTheirBits : Obligations.ParameterWritesStoreTheirBits := by
  unfold Obligations.ParameterWritesStoreTheirBits
  intro s w
  exact ⟨hostAccess_write .devtype w s, hostAccess_write .gain w s, hostAccess_write .refclk w s,
    hostAccess_write .timeout w s, hostAccess_write .f0Lo w s, hostAccess_write .f0Hi w s, hostAccess_write .f1Lo w s,
    hostAccess_write .f1Hi w s, hostAccess_write .step w s⟩

/-- The eight offsets of the read-only registers (10 R20, R45). -/
theorem exists_readOnly_of_mem {off : BitVec 7}
    (h : off ∈ [(0x2C : BitVec 7), 0x30, 0x34, 0x40, 0x44, 0x48, 0x4C, 0x50]) :
    ∃ r : Reg, r.readOnly = true ∧ r.offset = off := by
  have hoffsets : [(0x2C : BitVec 7), 0x30, 0x34, 0x40, 0x44, 0x48, 0x4C, 0x50] =
      (allRegs.filter Reg.readOnly).map Reg.offset := rfl
  rw [hoffsets, List.mem_map] at h
  obtain ⟨r, hr, hoff⟩ := h
  exact ⟨r, (List.mem_filter.mp hr).2, hoff⟩

/-- Settles O26: the offset is a read-only register's, where there is nothing to store. -/
theorem readOnlyWritesAreIgnored : Obligations.ReadOnlyWritesAreIgnored := by
  unfold Obligations.ReadOnlyWritesAreIgnored
  intro s w off h
  obtain ⟨r, hro, rfl⟩ := exists_readOnly_of_mem h
  have hcmd : r ≠ .cmd := by rintro rfl; cases hro
  have hstatus : r ≠ .status := by rintro rfl; cases hro
  rw [hostAccess_write_store hcmd hstatus, storeReg_readOnly hro]

/-- A platform address reaches an offset exactly when it is that offset's address (20 R60). -/
theorem windowOffset_eq_some_iff (addr : Nat) (off : BitVec 7) :
    windowOffset addr = some off ↔ addr = busAddress off := by
  have hoff : off.toNat < 128 := off.isLt
  unfold windowOffset busAddress
  constructor
  · intro h
    split_ifs at h with hin
    obtain rfl := Option.some.inj h
    rw [BitVec.toNat_ofNat]
    omega
  · rintro rfl
    rw [if_pos ⟨by omega, by omega⟩, Nat.add_sub_cancel_left, BitVec.ofNat_toNat, BitVec.setWidth_eq]

/-- Settles O31, by the two directions of `windowOffset_eq_some_iff`. -/
theorem windowIs128BytesFromBase : Obligations.WindowIs128BytesFromBase :=
  ⟨fun off => (windowOffset_eq_some_iff _ off).mpr rfl, fun addr off => (windowOffset_eq_some_iff addr off).mp⟩

/-! Reset and the CMD write as steps -/

/-- Settles O42: `resetBlock` writes the reset values over whatever was there. -/
theorem resetEventSetsEveryItem : Obligations.ResetEventSetsEveryItem := by
  unfold Obligations.ResetEventSetsEveryItem
  intro s
  exact ⟨resetBlock s, rfl, rfl, rfl, rfl, rfl, rfl, rfl⟩

/-- Settles O43, by evaluation of the reset state. -/
theorem resetValues : Obligations.ResetValues := by
  unfold Obligations.ResetValues
  exact ⟨rfl, by decide, by decide, rfl, by decide⟩

/-- Settles O49: the CMD write is the pending event, and it is a served write. -/
theorem stepRunsTheDecodedCommand : Obligations.StepRunsTheDecodedCommand := by
  unfold Obligations.StepRunsTheDecodedCommand
  intro s c cs w hinputs hrst hhost
  rw [step, stepInputs, hinputs]
  simp only [nextEvent_host c _ hrst hhost, performEvent]
  exact hostAccess_write .cmd w _

/-- Settles O52, clause by clause of the invariant. -/
theorem resetMeetsTheInvariant : Obligations.ResetMeetsTheInvariant := by
  unfold Obligations.ResetMeetsTheInvariant
  exact ⟨⟨by decide, by decide, by decide, by decide, by decide, by decide⟩, by decide⟩

end Sys2Proof.Machine
end

section
/-! SUPPORT. The bus and the order of events as steps see them: refused accesses, reads, coincident signals (20 R61 to
R66). -/

namespace Sys2Proof.Machine

/-! Reads (20 R64) -/

/-- The bus response is no register: nothing in the window reads it. -/
@[simp] theorem readReg_busResp (r : Reg) (s : State) (resp : BusResp) :
    readReg r { s with busResp := resp } = readReg r s := by
  cases r <;> rfl

/-- Settles O23: the second read meets a state that differs in the response alone. -/
theorem readsHaveNoSideEffect : Obligations.ReadsHaveNoSideEffect := by
  unfold Obligations.ReadsHaveNoSideEffect
  intro r s
  refine ⟨_, hostAccess_read r s, rfl, ?_⟩
  simp only [hostAccess_read, readReg_busResp]

/-! Refused accesses (20 R61, R62) -/

/-- A refused access answers ERROR and changes nothing else. -/
theorem hostAccess_refused {a : Access} {why : BusError} (h : checkAccess a = .error why) (s : State) :
    hostAccess a s = .fault (.hostError why { s with busResp := .error }) := by
  rw [hostAccess, h]

/-- Settles O27: an access that is served is 32 bits wide and reaches a register, and every register's offset is a
multiple of 4. -/
theorem narrowOrMisalignedAccessFaults : Obligations.NarrowOrMisalignedAccessFaults := by
  unfold Obligations.NarrowOrMisalignedAccessFaults
  intro a s hbad
  cases h : checkAccess a with
  | error why => exact ⟨why, hostAccess_refused h s⟩
  | ok r =>
    obtain ⟨hwidth, hoff⟩ := checkAccess_ok h
    have haligned : a.offset.toNat % 4 = 0 := by rw [hoff]; cases r <;> rfl
    exact (hbad.elim (· hwidth) (· haligned)).elim

/-- The gaps of the window: no register lies at 0x38, at 0x3C or from 0x54 up (10 R20). -/
theorem regAt_eq_none {off : BitVec 7} (h : off = 0x38 ∨ off = 0x3C ∨ 0x54 ≤ off.toNat) : regAt off = none := by
  cases hr : regAt off with
  | none => rfl
  | some r =>
    have hgap : ¬ (r.offset = 0x38 ∨ r.offset = 0x3C ∨ 0x54 ≤ r.offset.toNat) := by cases r <;> decide
    exact absurd (offset_of_regAt hr ▸ h) hgap

/-- Settles O28: the access passes the checks of width and alignment, and no register is there. -/
theorem unmappedAccessFaults : Obligations.UnmappedAccessFaults := by
  unfold Obligations.UnmappedAccessFaults
  intro k off s haligned hgap
  have hlow : off.extractLsb' 0 2 = 0 := by
    apply BitVec.eq_of_toNat_eq
    simpa using haligned
  refine hostAccess_refused ?_ s
  simp [checkAccess, hlow, regAt_eq_none hgap]

/-- A step that faults is a refused host access, taken off the ports and answered ERROR, with nothing else changed. -/
theorem step_fault {s t : State} {why : BusError} (h : step s = .fault (.hostError why t)) :
    ∃ cs, t = { s with inputs := cs, busResp := .error } := by
  rcases step_cases s with ⟨-, -, hs⟩ | ⟨c, cs, -, -, -, hs⟩ | ⟨c, cs, ev, c', -, -, -, hs⟩ <;> rw [hs] at h
  · cases h
  · cases h
  · cases ev with
    | host a =>
      rw [performEvent] at h
      rcases hostAccess_cases a { s with inputs := c' :: cs } with
        ⟨_, _, ha⟩ | ⟨r, _, ha⟩ | ⟨w, _, ha⟩ | ⟨w, _, ha⟩ | ⟨w, r, _, _, _, ha⟩ <;> rw [ha] at h
      · injection h with h
        injection h with _ h
        exact ⟨c' :: cs, h.symm⟩
      · cases h
      · rw [exec_next] at h; cases h
      · cases h
      · cases h
    | _ => cases h

/-- Settles O54: a fault is a refused host access. -/
theorem faultsChangeNothing : Obligations.FaultsChangeNothing := by
  unfold Obligations.FaultsChangeNothing
  intro s t why h
  obtain ⟨cs, rfl⟩ := step_fault h
  exact ⟨rfl, rfl, rfl, rfl⟩

/-! Coincident signals (20 R66) -/

/-- Settles O50: the two optional signals, the access and the received byte, are there or not; the rest of the order is the
definition's own. -/
theorem coincidentSignalsGoInOrder : Obligations.CoincidentSignalsGoInOrder := by
  unfold Obligations.CoincidentSignalsGoInOrder nextEvent
  intro c
  cases c.host with
  | some a => rfl
  | none =>
    cases c.rx with
    | some b => rfl
    | none => rfl

end Sys2Proof.Machine
end

section
/-! SUPPORT. Every step keeps the invariant: what each event leaves of the engine's bookkeeping, said once for a command in
progress and once for a completion (20 R68, 40 R123, R127, 42 R179, 60 R191 to R197). -/

namespace Sys2Proof.Machine

/-! The two ways an engine meets the invariant: with a command in progress, or completed with a fitting code -/

/-- The clauses of the invariant that speak neither of the sequencer state nor of the result. -/
abbrev Engine.DataOk (e : Engine) : Prop := e.CountsOk ∧ e.BuffersOk ∧ e.FrameOk ∧ e.NoWindowOk

theorem dataOk_of_inv {e : Engine} (h : e.Inv) : e.DataOk := by
  obtain ⟨hcounts, hbuffers, hframe, -, hwindow, -⟩ := h
  exact ⟨hcounts, hbuffers, hframe, hwindow⟩

theorem progressOk_of_inv {e : Engine} (h : e.Inv) : e.ProgressOk := by
  obtain ⟨-, -, -, hprogress, -, -⟩ := h
  exact hprogress

/-- While a command is in progress no code is recorded, so the records say nothing. -/
theorem inv_of_busy {e : Engine} (hdata : e.DataOk) (hprogress : e.ProgressOk) (hbusy : e.st ≠ .idle) : e.Inv := by
  obtain ⟨hcounts, hbuffers, hframe, hwindow⟩ := hdata
  obtain ⟨hdone, herr⟩ : e.done = false ∧ e.err = 0 := by
    cases hst : e.st with
    | idle => exact absurd hst hbusy
    | send => obtain ⟨-, -, -, hresult⟩ := hprogress.1 hst; exact hresult
    | waitAck => obtain ⟨-, -, -, -, -, hresult⟩ := hprogress.2 hst; exact hresult
  exact ⟨hcounts, hbuffers, hframe, hprogress, hwindow,
    by simp [Engine.RecordOk, Engine.OkRecord, Engine.RejectRecord, Engine.TimeoutRecord, Engine.IoRecord,
      Engine.BadAckRecord, hdone, herr, ErrorCode.code]⟩

/-- What the rules of a code say of the engine that records it (60 R191, R193 to R197). -/
def ErrorCode.Fits (c : ErrorCode) (e : Engine) : Prop :=
  match c with
  | .ok => e.flen ≠ 0 ∧ e.txcount = e.flen ∧ (e.expectAck = true → e.ackcnt = 3 ∧ ackVerdict e = .ok)
  | .cmd | .param => e.flen = 0 ∧ e.txcount = 0 ∧ e.ackcnt = 0 ∧ e.expectAck = false
  | .timeout =>
    e.expectAck = true ∧ e.flen ≠ 0 ∧ e.txcount = e.flen ∧ e.ackcnt < 3 ∧ e.tcount.toNat = windowTicks e
  | .io => e.flen ≠ 0 ∧ e.ackcnt < 3
  | .badAck => e.expectAck = true ∧ e.flen ≠ 0 ∧ e.txcount = e.flen ∧ e.ackcnt = 3 ∧ ackVerdict e = .badAck

@[simp] theorem windowTicks_complete (c : ErrorCode) (e : Engine) : windowTicks (complete c e) = windowTicks e := rfl
@[simp] theorem ackVerdict_complete (c : ErrorCode) (e : Engine) : ackVerdict (complete c e) = ackVerdict e := rfl

/-- A completion records its own code and none of the others. -/
theorem recordOk_complete {c : ErrorCode} {e : Engine} (h : c.Fits e) : (complete c e).RecordOk := by
  cases c <;>
    simpa [Engine.RecordOk, Engine.OkRecord, Engine.RejectRecord, Engine.TimeoutRecord, Engine.IoRecord,
      Engine.BadAckRecord, ErrorCode.Fits, ErrorCode.code] using h

theorem inv_complete {c : ErrorCode} {e : Engine} (hdata : e.DataOk) (h : c.Fits e) : (complete c e).Inv := by
  obtain ⟨⟨hflen, htx, hack, htick, -⟩, hbuffers, hframe, hwindow⟩ := hdata
  have hcode : c.code.toNat ≤ 5 := by cases c <;> decide
  exact ⟨⟨hflen, htx, hack, htick, hcode⟩, hbuffers, hframe, by simp [Engine.ProgressOk], hwindow, recordOk_complete h⟩

/-! The end of a GO (41 R140) -/

theorem inv_reject_goPrologue (w : Word) (e : Engine) {c : ErrorCode} (hc : c = .cmd ∨ c = .param) :
    (reject c (goPrologue w e)).Inv := by
  refine inv_complete ⟨?_, ?_, ?_, ?_⟩ ?_
  · simp [Engine.CountsOk]
  · simp [Engine.BuffersOk]
  · simp [Engine.FrameOk]
  · simp [Engine.NoWindowOk]
  · rcases hc with rfl | rfl <;> simp [ErrorCode.Fits]

/-- The length of a frame, and its opcode byte, which tells the length (30 R90). -/
theorem frameBody_length (c : Command) (r : Regs) :
    (frameBody c r).length + 1 ∈ [4, 11, 18] ∧
      frameLength params ((frameBody c r).getD 2 0) = some ((frameBody c r).length + 1) := by
  cases c <;> exact ⟨by simp [frameBody, toneBody, sweepBody, stopBody, be3], rfl⟩

/-- Every frame starts with the start symbol and the device byte (30 R85). -/
theorem frameBody_header (c : Command) (r : Regs) :
    (frameBody c r).getD 0 0 = params.startSymbol ∧ (frameBody c r).getD 1 0 = r.devtype := by
  cases c <;> exact ⟨rfl, rfl⟩

@[simp] theorem withChecksum_length (body : List Byte) : (withChecksum body).length = body.length + 1 := by
  simp [withChecksum]

theorem withChecksum_getD_of_lt {body : List Byte} {i : Nat} (h : i < body.length) :
    (withChecksum body).getD i 0 = body.getD i 0 := by
  simp [withChecksum, List.getElem?_append_left h]

theorem withChecksum_getD_length (body : List Byte) : (withChecksum body).getD body.length 0 = sum8 body := by
  simp [withChecksum]

/-- A latched frame meets the frame's clause: its header and its checksum are the encoder's (30 R85, 40 R123). -/
theorem frameOk_of_latched {c : Command} {r : Regs} {bytes : List Byte} (h : encodeFrame params c r = .ok bytes)
    {e : Engine} (hframe : e.frame = zeroFill bytes) (hflen : e.flen = bytes.length) : e.FrameOk := by
  obtain ⟨rfl, hdev, -⟩ := encodeFrame_ok h
  obtain ⟨hlen, hop⟩ := frameBody_length c r
  obtain ⟨hstart, hdevice⟩ := frameBody_header c r
  rw [withChecksum_length] at hflen
  obtain ⟨hmin, hmax⟩ : 3 ≤ (frameBody c r).length ∧ (frameBody c r).length + 1 ≤ 18 := by
    simp at hlen; omega
  have hbyte (i : Nat) : frameByte e i = (withChecksum (frameBody c r)).getD i 0 := by
    rw [frameByte, hframe, zeroFill_getD _ (by simpa using hmax)]
  have hheader {i : Nat} (hi : i < 3) : frameByte e i = (frameBody c r).getD i 0 := by
    rw [hbyte, withChecksum_getD_of_lt (by omega)]
  intro _
  refine ⟨?_, ?_, ?_, ?_⟩
  · rw [hheader (by decide), hstart]
  · rw [hheader (by decide), hdevice, deviceLegal_params]; exact hdev
  · rw [hheader (by decide), hop, hflen]
  · rw [hflen, Nat.add_sub_cancel, hbyte, withChecksum_getD_length, hframe,
      zeroFill_take _ (by simpa using hmax) _ (by simp), withChecksum, List.take_left]

/-- The GO's success starts sending with an empty record. -/
theorem inv_accept_goPrologue {c : Command} {r : Regs} {bytes : List Byte} (h : encodeFrame params c r = .ok bytes)
    (x : Bool) (timeout w : Word) (e : Engine) : (accept bytes x timeout (goPrologue w e)).Inv := by
  have hlen : bytes.length ∈ [4, 11, 18] := by
    obtain ⟨rfl, -, -⟩ := encodeFrame_ok h
    rw [withChecksum_length]
    exact (frameBody_length c r).1
  have hpos : 0 < bytes.length := by simp at hlen; omega
  refine inv_of_busy ⟨⟨?_, ?_, ?_, ?_, ?_⟩, ⟨?_, ?_⟩, frameOk_of_latched h rfl rfl, ?_⟩ ?_ ?_
  · exact List.mem_cons_of_mem _ hlen
  · simp
  · simp
  · simp
  · simp
  · intro i hi
    simp only [accept_flen] at hi
    simp [zeroFill, hi]
  · simp
  · simp [Engine.NoWindowOk]
  · simpa [Engine.ProgressOk] using hpos
  · simp

theorem inv_afterPrologue (i : Instr) (r : Regs) (w : Word) (e : Engine) :
    (afterPrologue i r (goPrologue w e)).Inv := by
  rcases afterPrologue_cases i r (goPrologue w e) with ⟨-, h⟩ | h | ⟨c, bytes, hbytes, h⟩ <;> rw [h]
  · exact inv_reject_goPrologue w e (.inl rfl)
  · exact inv_reject_goPrologue w e (.inr rfl)
  · exact inv_accept_goPrologue hbytes _ _ w e

/-! The flags' writes -/

/-- OVERRUN is in no clause. -/
theorem inv_overrunWrite {e : Engine} (h : e.Inv) : (overrunWrite e).Inv := h

/-- Clearing DONE takes back a claim and makes none. -/
theorem inv_statusWrite {e : Engine} (h : e.Inv) (w : Word) : (statusWrite w e).Inv := by
  obtain ⟨hcounts, hbuffers, hframe, ⟨hsend, hwait⟩, hwindow, hok, hrecords⟩ := h
  refine ⟨hcounts, hbuffers, hframe, ⟨?_, ?_⟩, hwindow, ?_, hrecords⟩
  · intro hst
    obtain ⟨htx, hack, htick, hdone, herr⟩ := hsend hst
    exact ⟨htx, hack, htick, by simp [hdone], herr⟩
  · intro hst
    obtain ⟨hexpect, htx, hflen, hack, htick, hdone, herr⟩ := hwait hst
    exact ⟨hexpect, htx, hflen, hack, htick, by simp [hdone], herr⟩
  · rintro ⟨hdone, herr⟩
    have hdone' : e.done = true := by simp_all
    exact hok ⟨hdone', herr⟩

/-! The exchange events (42 R160) -/

theorem inv_linkErrEvent {e : Engine} (h : e.Inv) : (linkErrEvent e).Inv := by
  have hdata := dataOk_of_inv h
  obtain ⟨hsend, hwait⟩ := progressOk_of_inv h
  rcases linkErrEvent_cases e with ⟨hbusy, hev⟩ | ⟨-, hev⟩ <;> rw [hev]
  · refine inv_complete hdata ?_
    cases hst : e.st with
    | idle => exact absurd hst hbusy
    | send =>
      obtain ⟨htx, hack, -⟩ := hsend hst
      exact ⟨by omega, by omega⟩
    | waitAck =>
      obtain ⟨-, -, hflen, hack, -⟩ := hwait hst
      exact ⟨hflen, hack⟩
  · exact h

/-- A tick in the window does not wrap the count (42 R179). -/
theorem tcount_succ_toNat {e : Engine} (h : e.tcount.toNat < windowTicks e) :
    (e.tcount + 1).toNat = e.tcount.toNat + 1 := by
  have hlimit := e.tlimit.isLt
  have hmax : windowTicks e = max e.tlimit.toNat 1 := rfl
  exact BitVec.toNat_add_of_lt (by simp; omega)

/-- The window belongs to a command that expects an acknowledgement. -/
theorem noWindowOk_of_expectAck {e : Engine} (h : e.expectAck = true) : e.NoWindowOk :=
  fun hno => absurd (h.symm.trans hno) (by decide)

/-- Counting a tick in the window keeps the data in order. -/
theorem dataOk_countTick {e : Engine} (h : e.Inv) (hst : e.st = .waitAck) :
    { e with tcount := e.tcount + 1 : Engine }.DataOk := by
  obtain ⟨⟨hflen, htx, hack, -, herr⟩, hbuffers, hframe, -⟩ := dataOk_of_inv h
  obtain ⟨-, hwait⟩ := progressOk_of_inv h
  obtain ⟨hexpect, -, -, -, htick, -⟩ := hwait hst
  refine ⟨⟨hflen, htx, hack, ?_, herr⟩, hbuffers, hframe, noWindowOk_of_expectAck hexpect⟩
  exact (tcount_succ_toNat htick).trans_le htick

theorem inv_tickEvent {e : Engine} (h : e.Inv) : (tickEvent e).Inv := by
  obtain ⟨-, hwait⟩ := progressOk_of_inv h
  rcases tickEvent_cases e with ⟨hst, hlt, hev⟩ | ⟨hst, hge, hev⟩ | ⟨-, hev⟩ <;> rw [hev]
  · obtain ⟨hexpect, htx, hflen, hack, htick, hresult⟩ := hwait hst
    refine inv_of_busy (dataOk_countTick h hst) ⟨by simp [hst], fun _ => ?_⟩ (by simp [hst])
    refine ⟨hexpect, htx, hflen, hack, (tcount_succ_toNat htick).trans_lt ?_, hresult⟩
    exact hlt.trans_le (Nat.le_max_left _ _)
  · obtain ⟨hexpect, htx, hflen, hack, htick, -⟩ := hwait hst
    refine inv_complete (dataOk_countTick h hst) ⟨hexpect, hflen, htx, hack, (tcount_succ_toNat htick).trans ?_⟩
    exact Nat.le_antisymm htick (max_le hge (Nat.le_add_left _ _))
  · exact h

/-- Collecting a byte in the window keeps the data in order. -/
theorem dataOk_storeAck {e : Engine} (h : e.Inv) (hst : e.st = .waitAck) (b : Byte) : (storeAck b e).DataOk := by
  obtain ⟨⟨hflen, htx, -, htick, herr⟩, ⟨hbuf, hackbuf⟩, hframe, -⟩ := dataOk_of_inv h
  obtain ⟨-, hwait⟩ := progressOk_of_inv h
  obtain ⟨hexpect, -, -, hack, -⟩ := hwait hst
  refine ⟨⟨hflen, htx, hack, htick, herr⟩, ⟨hbuf, fun j hj => ?_⟩, hframe, noWindowOk_of_expectAck hexpect⟩
  simp only [storeAck_ackcnt] at hj
  have hne : e.ackcnt ≠ j.val := by omega
  simpa [hne] using hackbuf j (by omega)

theorem inv_rxByte {e : Engine} (h : e.Inv) (b : Byte) : (rxByte b e).Inv := by
  obtain ⟨-, hwait⟩ := progressOk_of_inv h
  rcases rxByte_cases b e with ⟨hst, hlt, hev⟩ | ⟨hst, hlast, hev⟩ | ⟨-, -, hev⟩ | ⟨-, hev⟩ <;> rw [hev]
  · obtain ⟨hexpect, htx, hflen, -, hrest⟩ := hwait hst
    refine inv_of_busy (dataOk_storeAck h hst b) ⟨by simp [hst], fun _ => ?_⟩ (by simp [hst])
    exact ⟨hexpect, htx, hflen, hlt, hrest⟩
  · obtain ⟨hexpect, htx, hflen, -⟩ := hwait hst
    refine inv_complete (dataOk_storeAck h hst b) ?_
    have hfull : (storeAck b e).ackcnt = 3 := by rw [storeAck_ackcnt, hlast]
    rcases ackVerdict_cases (storeAck b e) with hv | hv <;> rw [hv]
    · exact ⟨hflen, htx, fun _ => ⟨hfull, hv⟩⟩
    · exact ⟨hexpect, hflen, htx, hfull, hv⟩
  · exact h
  · exact h

/-- Counting a sent byte keeps the data in order. -/
theorem dataOk_emitByte {s : State} (h : s.eng.Inv) (hlt : s.eng.txcount < s.eng.flen) : (emitByte s).eng.DataOk := by
  obtain ⟨⟨hflen, -, hack, htick, herr⟩, hbuffers, hframe, hwindow⟩ := dataOk_of_inv h
  exact ⟨⟨hflen, hlt, hack, htick, herr⟩, hbuffers, hframe, hwindow⟩

/-- The window opens empty (42 R165). -/
theorem dataOk_openWindow {e : Engine} (h : e.DataOk) : (openWindow e).DataOk := by
  obtain ⟨⟨hflen, htx, -, -, herr⟩, ⟨hbuf, -⟩, hframe, -⟩ := h
  exact ⟨⟨hflen, htx, by simp, by simp, herr⟩, ⟨hbuf, by simp⟩, hframe, by simp [Engine.NoWindowOk]⟩

theorem inv_txAccept {s : State} (h : s.eng.Inv) : (txAccept s).eng.Inv := by
  obtain ⟨hsend, -⟩ := progressOk_of_inv h
  rcases txAccept_cases s with ⟨hst, hlt, hev⟩ | ⟨hst, hlast, hev⟩ | ⟨-, hev⟩ <;> rw [hev]
  · obtain ⟨htx, hrest⟩ := hsend hst
    exact inv_of_busy (dataOk_emitByte h htx) ⟨fun _ => ⟨hlt, hrest⟩, by simp [hst]⟩ (by simp [hst])
  · obtain ⟨htx, hack, htick, hresult⟩ := hsend hst
    have hdata := dataOk_emitByte h htx
    have hflen : s.eng.flen ≠ 0 := by omega
    rcases afterLastByte_cases (emitByte s).eng with ⟨hexpect, hafter⟩ | ⟨hexpect, hafter⟩ <;> simp only [hafter]
    · refine inv_of_busy (dataOk_openWindow hdata) ⟨by simp, fun _ => ?_⟩ (by simp)
      exact ⟨hexpect, hlast, hflen, by simp, by simp [windowTicks], hresult⟩
    · exact inv_complete hdata ⟨hflen, hlast, fun hyes => absurd (hyes.symm.trans hexpect) (by decide)⟩
  · exact h

/-! The TX stream (20 R68) -/

/-- Nothing sent of the frame in the buffer. -/
theorem streamOk_of_txcount_zero {s : State} (h : s.eng.txcount = 0) : s.StreamOk := by
  simp [State.StreamOk, h]

/-- The clause of the stream looks at the frame, the count and the stream. -/
theorem streamOk_congr {s t : State} (h : s.StreamOk) (hframe : t.eng.frame = s.eng.frame)
    (htx : t.eng.txcount = s.eng.txcount) (hout : t.txOut = s.txOut) : t.StreamOk := by
  rwa [State.StreamOk, hframe, htx, hout]

@[simp] theorem linkErrEvent_txcount (e : Engine) : (linkErrEvent e).txcount = e.txcount := by
  rcases linkErrEvent_cases e with ⟨-, h⟩ | ⟨-, h⟩ <;> simp [h]

@[simp] theorem tickEvent_txcount (e : Engine) : (tickEvent e).txcount = e.txcount := by
  rcases tickEvent_cases e with ⟨-, -, h⟩ | ⟨-, -, h⟩ | ⟨-, h⟩ <;> simp [h]

@[simp] theorem rxByte_txcount (b : Byte) (e : Engine) : (rxByte b e).txcount = e.txcount := by
  rcases rxByte_cases b e with ⟨-, -, h⟩ | ⟨-, -, h⟩ | ⟨-, -, h⟩ | ⟨-, h⟩ <;> simp [h]

@[simp] theorem afterPrologue_txcount (i : Instr) (r : Regs) (e : Engine) :
    (afterPrologue i r e).txcount = e.txcount := by
  rcases afterPrologue_cases i r e with ⟨-, h⟩ | h | ⟨c, bytes, -, h⟩ <;> simp [h]

/-- Inside the buffer, `frameByte` is the byte there. -/
theorem frameByte_eq_getElem (e : Engine) {i : Nat} (h : i < e.frame.toList.length) :
    frameByte e i = e.frame.toList[i] := by
  simp only [Vector.length_toList] at h
  simp [frameByte, h]

/-- The byte a handshake takes is the next one of the frame, and it goes to the end of the stream (42 R162). -/
theorem streamOk_emitByte {s : State} (h : s.StreamOk) (hlt : s.eng.txcount < 18) : (emitByte s).StreamOk := by
  have hlen : s.eng.txcount < s.eng.frame.toList.length := by simpa using hlt
  obtain ⟨earlier, hearlier⟩ := h
  refine ⟨earlier, ?_⟩
  rw [emitByte_eng_frame, emitByte_eng_txcount, emitByte_txOut, List.take_succ_eq_append_getElem hlen,
    ← List.append_assoc, hearlier, frameByte_eq_getElem _ hlen]

theorem flen_le_of_inv {e : Engine} (h : e.Inv) : e.flen ≤ 18 := by
  obtain ⟨⟨hflen, -⟩, -⟩ := h
  simp at hflen
  omega

theorem streamOk_txAccept {s : State} (h : s.Inv) : (txAccept s).StreamOk := by
  obtain ⟨heng, hstream⟩ := h
  have hmax := flen_le_of_inv heng
  rcases txAccept_cases s with ⟨hst, hlt, hev⟩ | ⟨hst, hlast, hev⟩ | ⟨-, hev⟩ <;> rw [hev]
  · exact streamOk_emitByte hstream (by omega)
  · have hsent := streamOk_emitByte hstream (by omega)
    rcases afterLastByte_cases (emitByte s).eng with ⟨-, hafter⟩ | ⟨-, hafter⟩ <;> rw [hafter] <;> exact hsent
  · exact hstream

/-! A step -/

theorem inv_step {s t : State} (h : s.Inv) (hstep : step s = .next t) : t.Inv := by
  obtain ⟨heng, hstream⟩ := h
  rcases step_engine_cases s t hstep with ⟨he, ho, -⟩ | ⟨-, he, -, ho⟩ | ⟨w, -, -, ho, he⟩ | ⟨w, -, -, ho, he⟩ |
    ⟨-, -, ho, he⟩ | ⟨-, -, ho, he⟩ | ⟨b, -, -, ho, he⟩ | ⟨-, -, ho, he⟩
  · exact ⟨he ▸ heng, streamOk_congr hstream (by rw [he]) (by rw [he]) ho⟩
  · obtain ⟨hreset, -⟩ := resetMeetsTheInvariant
    exact ⟨he ▸ hreset, streamOk_of_txcount_zero (by rw [he]; rfl)⟩
  · split_ifs at he
    · exact ⟨he ▸ inv_afterPrologue _ _ _ _, streamOk_of_txcount_zero (by simp [he])⟩
    · exact ⟨he ▸ inv_overrunWrite heng, streamOk_congr hstream (by simp [he]) (by simp [he]) ho⟩
  · exact ⟨he ▸ inv_statusWrite heng w, streamOk_congr hstream (by simp [he]) (by simp [he]) ho⟩
  · exact ⟨he ▸ inv_linkErrEvent heng,
      streamOk_congr hstream (he ▸ (exchangeKeeps_linkErrEvent s.eng).frame) (by simp [he]) ho⟩
  · exact ⟨he ▸ inv_txAccept heng, streamOk_congr (streamOk_txAccept ⟨heng, hstream⟩) (by rw [he]) (by rw [he]) ho⟩
  · exact ⟨he ▸ inv_rxByte heng b,
      streamOk_congr hstream (he ▸ (exchangeKeeps_rxByte b s.eng).frame) (by simp [he]) ho⟩
  · exact ⟨he ▸ inv_tickEvent heng,
      streamOk_congr hstream (he ▸ (exchangeKeeps_tickEvent s.eng).frame) (by simp [he]) ho⟩

/-- Settles O53: event by event for a step that answers, and a refused access leaves what the invariant looks at. -/
theorem everyStepKeepsTheInvariant : Obligations.EveryStepKeepsTheInvariant := by
  unfold Obligations.EveryStepKeepsTheInvariant
  rintro s t h (hstep | ⟨why, hfault⟩)
  · exact inv_step h hstep
  · obtain ⟨cs, rfl⟩ := step_fault hfault
    exact h

end Sys2Proof.Machine
end

section
/-! SUPPORT. A whole frame leaves: handshakes in a row, and the ready cycles that carry them (20 R68, 42 R162, R163). -/

namespace Sys2Proof.Machine

/-- A handshake before the last byte. -/
theorem txAccept_of_lt {s : State} (hst : s.eng.st = .send) (hlt : s.eng.txcount + 1 < s.eng.flen) :
    txAccept s = emitByte s := by
  rw [txAccept, if_pos ((txValid_iff _).mpr hst), if_pos hlt]

/-- The handshake of the last byte. -/
theorem txAccept_of_last {s : State} (hst : s.eng.st = .send) (hlast : s.eng.txcount + 1 = s.eng.flen) :
    txAccept s = { emitByte s with eng := afterLastByte (emitByte s).eng } := by
  rw [txAccept, if_pos ((txValid_iff _).mpr hst), if_neg (by omega), if_pos hlast]

/-- `s` with the next `n` bytes of its frame on the stream and counted. -/
def sendBytes (n : Nat) (s : State) : State :=
  { s with
    eng := { s.eng with txcount := s.eng.txcount + n }
    txOut := s.txOut ++ (s.eng.frame.toList.drop s.eng.txcount).take n }

/-- One byte after `n` bytes is `n + 1` bytes, in the order of the frame. -/
theorem emitByte_sendBytes {n : Nat} {s : State} (h : s.eng.txcount + n < 18) :
    emitByte (sendBytes n s) = sendBytes (n + 1) s := by
  have hlen : s.eng.txcount + n < s.eng.frame.toList.length := by simpa using h
  have hbyte : frameByte s.eng (s.eng.txcount + n) = (s.eng.frame.toList.drop s.eng.txcount)[n]'(by simp; omega) := by
    rw [frameByte_eq_getElem _ hlen, List.getElem_drop]
  have htake := List.take_succ_eq_append_getElem (l := s.eng.frame.toList.drop s.eng.txcount) (i := n) (by simp; omega)
  rw [← hbyte] at htake
  rw [sendBytes, sendBytes, htake, ← List.append_assoc]
  rfl

/-- Handshakes short of the last byte send as many bytes. -/
theorem iterate_txAccept_of_lt {s : State} (hst : s.eng.st = .send) (hmax : s.eng.flen ≤ 18) (n : Nat)
    (hlt : s.eng.txcount + n < s.eng.flen) : txAccept^[n] s = sendBytes n s := by
  induction n with
  | zero => simp [sendBytes]
  | succ n ih =>
    rw [Function.iterate_succ_apply', ih (by omega), txAccept_of_lt (s := sendBytes n s) hst hlt,
      emitByte_sendBytes (by omega)]

/-- As many handshakes as bytes are left send all of them and end SEND. -/
theorem iterate_txAccept_of_last {s : State} (hst : s.eng.st = .send) (hmax : s.eng.flen ≤ 18) {n : Nat}
    (hlast : s.eng.txcount + (n + 1) = s.eng.flen) :
    txAccept^[n + 1] s = { sendBytes (n + 1) s with eng := afterLastByte (sendBytes (n + 1) s).eng } := by
  rw [Function.iterate_succ_apply', iterate_txAccept_of_lt hst hmax n (by omega),
    txAccept_of_last (s := sendBytes n s) hst hlast, emitByte_sendBytes (by omega)]

/-- The ports make no difference to a row of handshakes. -/
theorem iterate_txAccept_inputs (n : Nat) (s : State) (cs : List Cycle) :
    txAccept^[n] { s with inputs := cs } = { txAccept^[n] s with inputs := cs } := by
  induction n generalizing s with
  | zero => rfl
  | succ n ih => rw [Function.iterate_succ_apply, txAccept_inputs, ih, ← Function.iterate_succ_apply]

/-- A ready cycle runs as a handshake, in two steps (log entry 2). -/
theorem run_ready_cycle (k : Nat) (s : State) (cs : List Cycle) (hinputs : s.inputs = { txReady := true } :: cs) :
    Host.Core.run core (k + 2) s = Host.Core.run core k { txAccept s with inputs := cs } := by
  rw [run_one_signal s _ _ .txAccept cs k hinputs rfl rfl (by rw [txAccept_inputs]), txAccept_inputs]

/-- Ready cycles run as handshakes, two steps a cycle. -/
theorem run_ready_cycles (n : Nat) (s : State) (rest : List Cycle)
    (hinputs : s.inputs = List.replicate n { txReady := true } ++ rest) :
    Host.Core.run core (2 * n) s = .next { txAccept^[n] s with inputs := rest } := by
  induction n generalizing s with
  | zero =>
    obtain rfl : s.inputs = rest := hinputs
    rfl
  | succ n ih =>
    rw [List.replicate_succ, List.cons_append] at hinputs
    rw [Nat.mul_succ, run_ready_cycle _ _ _ hinputs, ih _ rfl, iterate_txAccept_inputs, Function.iterate_succ_apply]

/-- Settles O58: the ready cycles are handshakes, the last of which opens the window or completes with OK. -/
theorem wholeFrameLeavesInOrder : Obligations.WholeFrameLeavesInOrder := by
  unfold Obligations.WholeFrameLeavesInOrder
  intro s rest ⟨heng, _⟩ hst hinputs
  have hmax := flen_le_of_inv heng
  obtain ⟨hlt, -, -, hdone, -⟩ := (progressOk_of_inv heng).1 hst
  refine ⟨_, run_ready_cycles _ s rest hinputs, rfl, ?_⟩
  obtain ⟨n, hn⟩ : ∃ n, s.eng.flen - s.eng.txcount = n + 1 := Nat.exists_eq_add_one.mpr (by omega)
  have hlast : s.eng.txcount + (n + 1) = s.eng.flen := by omega
  have hrest : (s.eng.frame.toList.take s.eng.flen).drop s.eng.txcount =
      (s.eng.frame.toList.drop s.eng.txcount).take (n + 1) := by rw [List.drop_take, hn]
  rw [hn, iterate_txAccept_of_last hst hmax hlast, hrest]
  refine ⟨rfl, ?_⟩
  rcases afterLastByte_cases (sendBytes (n + 1) s).eng with ⟨hexpect, hafter⟩ | ⟨hexpect, hafter⟩ <;> rw [hafter]
  · have hyes : s.eng.expectAck = true := hexpect
    exact ⟨hlast, rfl, fun _ => ⟨rfl, hdone⟩, fun hno => by simp_all⟩
  · have hno : s.eng.expectAck = false := hexpect
    exact ⟨hlast, rfl, fun hyes => by simp_all, fun _ => ⟨rfl, rfl, rfl⟩⟩

end Sys2Proof.Machine
end

section
/-! SUPPORT. The command word: its layout by field, the words the decoder calls legal, and the round trip of decoder and
encoder (30 R81 to R84). -/

namespace Sys2Proof

theorem commandWord_toNat (rsvd : BitVec 23) (noack : Bool) (op : Byte) :
    (commandWord rsvd noack op).toNat = (rsvd.toNat * 2 ^ 1 + noack.toNat) * 2 ^ 8 + op.toNat :=
  calc (commandWord rsvd noack op).toNat = (rsvd ++ BitVec.ofBool noack).toNat * 2 ^ 8 + op.toNat :=
        Machine.toNat_append_eq_add _ op
    _ = (rsvd.toNat * 2 ^ 1 + noack.toNat) * 2 ^ 8 + op.toNat := by
      rw [Machine.toNat_append_eq_add, BitVec.toNat_ofBool]

/-- A word is laid out as a CMD word of its own three fields and of no others (30 R81). -/
theorem eq_commandWord_iff (w : Word) (rsvd : BitVec 23) (noack : Bool) (op : Byte) :
    w = commandWord rsvd noack op ↔
      w.extractLsb' 9 23 = rsvd ∧ w.getLsbD 8 = noack ∧ w.extractLsb' 0 8 = op := by
  constructor
  · rintro rfl
    unfold commandWord
    simp (disch := decide) [↓Machine.getLsbD_append_of_le, ↓Machine.getLsbD_append_of_lt,
      ↓BitVec.extractLsb'_append_eq_of_le, ↓BitVec.extractLsb'_append_eq_of_add_le]
  · rintro ⟨rfl, rfl, rfl⟩
    apply BitVec.eq_of_toNat_eq
    have hbit : (w.getLsbD 8).toNat = w.toNat / 256 % 2 := Nat.toNat_testBit w.toNat 8
    have hw := w.isLt
    rw [commandWord_toNat, hbit, BitVec.extractLsb'_toNat, BitVec.extractLsb'_toNat, Nat.shiftRight_eq_div_pow]
    omega

/-- A well-formed command is what its word decodes to (30 R83). -/
theorem decode_encode {i : Instr} (h : i.WellFormed) : decode (encode i) = i := by
  cases i with
  | tone => exact Laws.CommandWord.tone h
  | sweep => exact Laws.CommandWord.sweep h
  | stop => exact Laws.CommandWord.stop h
  | stopNoack => exact Laws.CommandWord.stopNoack h
  | illegal w => exact Laws.CommandWord.illegal w h

/-- Every word decodes to a well-formed command that encodes back to it (30 R83, R84). -/
theorem encode_decode (w : Word) : (decode w).WellFormed ∧ encode (decode w) = w := by
  by_cases hmem : w ∈ legalWords
  · simp only [legalWords, List.mem_cons, List.not_mem_nil, or_false] at hmem
    rcases hmem with rfl | rfl | rfl | rfl <;> exact ⟨trivial, rfl⟩
  · have hdecode : decode w = .illegal w := Laws.CommandWord.illegal w hmem
    rw [hdecode]
    exact ⟨hmem, rfl⟩

/-- The decoder calls the words of the table legal, and no others (30 R83, R84). -/
theorem decode_ne_illegal_iff (w : Word) : (∀ v, decode w ≠ .illegal v) ↔ w ∈ legalWords := by
  constructor
  · intro hlegal
    by_contra hmem
    exact hlegal w (Laws.CommandWord.illegal w hmem)
  · intro hmem v hdecode
    obtain ⟨hwf, hencode⟩ := encode_decode w
    rw [hdecode] at hwf hencode
    rw [← hencode] at hmem
    exact hwf hmem

/-- Settles O3: the four legal words, each by its fields. -/
theorem legalWordsHaveTheCmdLayout : Obligations.LegalWordsHaveTheCmdLayout := by
  unfold Obligations.LegalWordsHaveTheCmdLayout
  intro w
  rw [decode_ne_illegal_iff]
  simp only [legalWords, List.mem_cons, List.not_mem_nil, or_false, toneWord, sweepWord, stopWord, stopNoackWord,
    eq_commandWord_iff, Config.plzfrm]
  cases w.getLsbD 8 with
  | false => simp [← and_or_left]
  | true => simp +contextual

/-- Settles O1, by evaluation of the decoder. -/
theorem sampleCommandWordsDecode : Obligations.SampleCommandWordsDecode := by
  unfold Obligations.SampleCommandWordsDecode
  decide

/-- Settles O2, by the two directions. -/
theorem commandWordRoundTrip : Obligations.CommandWordRoundTrip := by
  unfold Obligations.CommandWordRoundTrip
  exact ⟨fun _ => decode_encode, encode_decode⟩

end Sys2Proof
end

section
/-! SUPPORT. Encoded frames: their layout, a receiver's reading of them, and the GO that latches one (30 R85 to R91,
40 R120 to R126, 41 R140). -/

namespace Sys2Proof.Machine

/-- Settles O9: the bytes are the command's body and its checksum. -/
theorem frameLengthsAndHeader : Obligations.FrameLengthsAndHeader := by
  unfold Obligations.FrameLengthsAndHeader
  intro c r bytes h
  obtain ⟨rfl, -, -⟩ := encodeFrame_ok h
  cases c <;> exact ⟨rfl, rfl, rfl, rfl, rfl⟩

/-! Reading a frame (30 R90, R91) -/

/-- Three bytes hold every number up to FIELD_MAX (40 R120). -/
theorem fromBe3_of_fits {v : Nat} (h : v ≤ 16777215) :
    fromBe3 (BitVec.ofNat 8 (v / 65536)) (BitVec.ofNat 8 (v / 256)) (BitVec.ofNat 8 v) = v := by
  simp only [fromBe3, BitVec.toNat_ofNat]
  omega

/-- A receiver reads a Tone frame (30 R86). -/
theorem parseFrame_tone (dev gain : Byte) {ref freq : Nat} (href : ref ≤ 16777215) (hfreq : freq ≤ 16777215) :
    parseFrame params (withChecksum ([0xAD, dev, 0x01, gain] ++ be3 ref ++ be3 freq)) =
      some (.tone dev gain ref freq) := by
  simp only [withChecksum, be3, List.cons_append, List.nil_append, parseFrame]
  rw [if_pos ⟨rfl, rfl, trivial⟩, fromBe3_of_fits href, fromBe3_of_fits hfreq]

/-- A receiver reads a Sweep frame (30 R87). -/
theorem parseFrame_sweep (dev gain : Byte) {ref start stop step : Nat} (href : ref ≤ 16777215)
    (hstart : start ≤ 16777215) (hstop : stop ≤ 16777215) (hstep : step ≤ 16777215) :
    parseFrame params (withChecksum
        ([0xAD, dev, 0x02, gain] ++ be3 ref ++ be3 start ++ be3 stop ++ be3 step ++ [0x01])) =
      some (.sweep dev gain ref start stop step) := by
  simp only [withChecksum, be3, List.cons_append, List.nil_append, parseFrame]
  rw [if_pos ⟨rfl, rfl, rfl, trivial⟩, fromBe3_of_fits href, fromBe3_of_fits hstart, fromBe3_of_fits hstop,
    fromBe3_of_fits hstep]

/-- A receiver reads a Stop frame (30 R88). -/
theorem parseFrame_stop (dev : Byte) : parseFrame params (withChecksum [0xAD, dev, 0xFF]) = some (.stop dev) :=
  if_pos ⟨rfl, rfl, rfl⟩

/-- Settles O10: the encoder's checks are the ranges in which a receiver reads the fields back. -/
theorem encodedFrameReadsBack : Obligations.EncodedFrameReadsBack := by
  unfold Obligations.EncodedFrameReadsBack
  intro c r bytes h f0 f1
  obtain ⟨rfl, -, hscaled, hsweep⟩ := encodeFrame_ok h
  cases c with
  | tone =>
    obtain ⟨href, hf0⟩ := hscaled (.inl rfl)
    exact parseFrame_tone _ _ href hf0
  | sweep =>
    obtain ⟨href, hf0⟩ := hscaled (.inr rfl)
    obtain ⟨hf1, -, hstep⟩ := hsweep rfl
    exact parseFrame_sweep _ _ href hf0 hf1 hstep
  | stop => exact parseFrame_stop _
  | stopNoack => exact parseFrame_stop _

/-! Latching a frame (41 R140) -/

/-- A GO whose frame the encoder gives latches it and starts sending; `c` is the command that `i` stands for. -/
theorem exec_accepts {i : Instr} {c : Command} {s : State} {bytes : List Byte} (hidle : s.eng.st = .idle)
    (hi : afterPrologue i = startCommand c) (h : encodeFrame params c s.regs = .ok bytes) :
    exec i s = .next { s with
      eng := accept bytes (Command.expectsAck c) s.regs.timeout (goPrologue (encode i) s.eng) } := by
  rw [exec_next, if_pos hidle, hi, startCommand, h]

/-- Registers that pass the checks of 40 R124 are encoded: the converse of `encodeFrame_ok`. -/
theorem encodeFrame_of_legal {c : Command} {r : Regs} (hdev : r.devtype = 1 ∨ r.devtype = 2)
    (hscaled : c = .tone ∨ c = .sweep →
      rnd .halfEven r.refclk.toNat 100 ≤ 16777215 ∧ rnd .halfEven r.f0 1000 ≤ 16777215)
    (hsweep : c = .sweep → rnd .halfEven r.f1 1000 ≤ 16777215 ∧ r.step.toNat ≠ 0 ∧ r.step.toNat ≤ 16777215) :
    encodeFrame params c r = .ok (withChecksum (frameBody c r)) := by
  have hdevice := (deviceLegal_params _).mpr hdev
  cases c with
  | tone =>
    obtain ⟨href, hf0⟩ := hscaled (.inl rfl)
    simp [encodeFrame, frameBody, hdevice, href, hf0]
  | sweep =>
    obtain ⟨href, hf0⟩ := hscaled (.inr rfl)
    obtain ⟨hf1, hstep⟩ := hsweep rfl
    simp [encodeFrame, frameBody, hdevice, href, hf0, hf1, (stepLegal_params _).mpr hstep, stepField]
  | stop => simp [encodeFrame, frameBody, hdevice]
  | stopNoack => simp [encodeFrame, frameBody, hdevice]

/-- Settles O13: the checks of TONE pass, and the GO latches the frame. -/
theorem toneLatchesItsFrameAndSends : Obligations.ToneLatchesItsFrameAndSends := by
  unfold Obligations.ToneLatchesItsFrameAndSends
  intro s hidle hdev f0 href hf0 body
  exact exec_accepts hidle rfl (encodeFrame_of_legal (c := .tone) hdev (fun _ => ⟨href, hf0⟩) nofun)

/-- Settles O14: the checks of SWEEP pass, and the GO latches the frame. -/
theorem sweepLatchesItsFrameAndSends : Obligations.SweepLatchesItsFrameAndSends := by
  unfold Obligations.SweepLatchesItsFrameAndSends
  intro s hidle hdev f0 f1 href hf0 hf1 hpos hstep body
  exact exec_accepts hidle rfl (encodeFrame_of_legal (c := .sweep) hdev (fun _ => ⟨href, hf0⟩)
    fun _ => ⟨hf1, Nat.one_le_iff_ne_zero.mp hpos, hstep⟩)

/-- The checksum of the Stop frame (30 R88). -/
theorem sum8_stopBody (r : Regs) : sum8 (stopBody params r) = 0xAD + r.devtype + 0xFF := by
  simp [stopBody, sum8, BitVec.ofNat_add, BitVec.add_assoc]

/-- Settles O15: the same registers are checked, and the same body gets the same checksum. -/
theorem stopAndStopNoackLatchTheSameFrame : Obligations.StopAndStopNoackLatchTheSameFrame := by
  unfold Obligations.StopAndStopNoackLatchTheSameFrame
  intro s hidle hdev started
  have hbytes : withChecksum (stopBody params s.regs) =
      [0xAD, s.regs.devtype, 0xFF, 0xAD + s.regs.devtype + 0xFF] := by
    rw [withChecksum, sum8_stopBody]; rfl
  have hstop := encodeFrame_of_legal (c := .stop) hdev nofun nofun
  have hstopNoack := encodeFrame_of_legal (c := .stopNoack) hdev nofun nofun
  simp only [frameBody, hbytes] at hstop hstopNoack
  exact ⟨exec_accepts hidle rfl hstop, exec_accepts hidle rfl hstopNoack⟩

end Sys2Proof.Machine
end

section
/-! SUPPORT. A command in a host script: its one write is taken off the ports in two steps (30 R93, R94). -/

namespace Sys2Proof.Machine

/-- The write of a command's word, put in front of the ports, is the command and then the passing over of the emptied
cycle (41 R140; log entries 2 and 19). -/
theorem feed_commandStmt {i : Instr} (hi : i.WellFormed) {b t : State}
    (ht : exec i { b with inputs := ({} : Cycle) :: b.inputs, busResp := .okay } = .next t) :
    feed (commandStmt i).cycles b = .next { t with inputs := b.inputs } := by
  have hwrite : step { b with inputs := (commandStmt i).cycles ++ b.inputs } = .next t := by
    rw [stepRunsTheDecodedCommand _ (commandCycle (encode i)) b.inputs (encode i) rfl rfl rfl, decode_encode hi]
    exact ht
  have hempty : step t = .next { t with inputs := b.inputs } := by
    obtain ⟨-, hinputs, -⟩ := commandsKeepEverythingElse i _ t ht
    rw [step, stepInputs, hinputs]
    rfl
  show stepMany 2 _ = _
  simp only [stepMany, hwrite, hempty]

/-- Settles O60: the statement feeds one write, and a write keeps no value. -/
theorem scriptCommandRunsTheCommand : Obligations.ScriptCommandRunsTheCommand := by
  unfold Obligations.ScriptCommandRunsTheCommand
  intro i prog pos kept b hi hprog
  obtain ⟨t, ht⟩ : ∃ t, exec i { b with inputs := ({} : Cycle) :: b.inputs, busResp := .okay } = .next t :=
    ⟨_, exec_next i _⟩
  refine ⟨t, ht, ?_⟩
  have hfeed := feed_commandStmt hi ht
  rw [commandStmt] at hprog hfeed
  simp [hostScriptStep, hprog, hfeed, keepRead]

end Sys2Proof.Machine
end

section
/-! SUPPORT. The encoder's numeric fields and frames: rounding and its range, big-endian packing, the checksum, the
registers a command reads, and what a receiver finds in a latched frame (40 R110 to R128). -/

namespace Sys2Proof.Machine

/-! Rounding (40 R111) -/

theorem rnd_of_lt (ties : RoundTies) {n d : Nat} (h : 2 * (n % d) < d) : rnd ties n d = n / d := by
  simp [rnd, h]

theorem rnd_of_gt (ties : RoundTies) {n d : Nat} (h : d < 2 * (n % d)) : rnd ties n d = n / d + 1 := by
  simp [rnd, h, Nat.lt_asymm h]

theorem rnd_halfEven_of_tie {n d : Nat} (h : 2 * (n % d) = d) : rnd .halfEven n d = n / d + n / d % 2 := by
  simp [rnd, h]

theorem rnd_halfUp_of_tie {n d : Nat} (h : 2 * (n % d) = d) : rnd .halfUp n d = n / d + 1 := by
  simp [rnd, h]

/-- Rounding goes down to the quotient from at most a half, or up to the next number from at least a half. -/
theorem rnd_cases (ties : RoundTies) (n d : Nat) :
    (2 * (n % d) ≤ d ∧ rnd ties n d = n / d) ∨ (d ≤ 2 * (n % d) ∧ rnd ties n d = n / d + 1) := by
  rcases Nat.lt_trichotomy (2 * (n % d)) d with h | h | h
  · exact .inl ⟨h.le, rnd_of_lt ties h⟩
  · cases ties with
    | halfEven =>
      rw [rnd_halfEven_of_tie h]
      omega
    | halfUp => exact .inr ⟨h.ge, rnd_halfUp_of_tie h⟩
  · exact .inr ⟨h.le, rnd_of_gt ties h⟩

/-- The rounded quotient, multiplied back, is within half a unit. -/
theorem rnd_within_half (ties : RoundTies) (n : Nat) {d : Nat} (hd : 0 < d) :
    2 * (d * rnd ties n d) ≤ 2 * n + d ∧ 2 * n ≤ 2 * (d * rnd ties n d) + d := by
  have hdiv : d * (n / d) + n % d = n := Nat.div_add_mod n d
  have hmod : n % d < d := Nat.mod_lt n hd
  rcases rnd_cases ties n d with ⟨hdown, h⟩ | ⟨hup, h⟩ <;> rw [h]
  · omega
  · rw [Nat.mul_succ]
    omega

/-- Settles O4: the bound holds under each rule, and a tie is one equation of `rnd` for each. -/
theorem rndIsNearestWithTiesByParameter : Obligations.RndIsNearestWithTiesByParameter := by
  unfold Obligations.RndIsNearestWithTiesByParameter
  refine ⟨rfl, fun ties n d hd => ?_⟩
  obtain ⟨hupper, hlower⟩ := rnd_within_half ties n (d := d) (by omega)
  refine ⟨hupper, hlower, fun htie => ?_⟩
  cases ties with
  | halfEven =>
    show rnd .halfEven n d % 2 = 0
    rw [rnd_halfEven_of_tie htie]
    omega
  | halfUp => exact rnd_halfUp_of_tie htie

/-! Ranges (40 R112, R113, R115) -/

/-- FIELD_MAX is odd, so the tie half a unit above it rounds up, out of range. -/
theorem rnd_halfEven_le_fieldMax_iff (n : Nat) {d : Nat} (hd : d = 100 ∨ d = 1000) :
    rnd .halfEven n d ≤ 16777215 ↔ 2 * n < (2 * 16777215 + 1) * d := by
  rcases Nat.lt_trichotomy (2 * (n % d)) d with h | h | h
  · rw [rnd_of_lt _ h]
    rcases hd with rfl | rfl <;> omega
  · rw [rnd_halfEven_of_tie h]
    rcases hd with rfl | rfl <;> omega
  · rw [rnd_of_gt _ h]
    rcases hd with rfl | rfl <;> omega

/-- Settles O5: each limit is the last integer less than half a unit above FIELD_MAX. -/
theorem scaledFieldLimits : Obligations.ScaledFieldLimits := by
  unfold Obligations.ScaledFieldLimits
  constructor
  · intro r
    rw [fits_params, decide_eq_true_iff, refclkField_params, rnd_halfEven_le_fieldMax_iff _ (.inl rfl)]
    omega
  · intro hz
    rw [fits_params, decide_eq_true_iff, freqField_params, rnd_halfEven_le_fieldMax_iff _ (.inr rfl)]
    omega

/-! Packing and checksum (40 R120 to R122) -/

/-- Settles O6: up to FIELD_MAX the top byte loses no bits. -/
theorem be3IsBigEndian : Obligations.Be3IsBigEndian := by
  unfold Obligations.Be3IsBigEndian
  intro v hv
  refine ⟨_, _, _, rfl, ?_, BitVec.toNat_ofNat .., BitVec.toNat_ofNat .., fromBe3_of_fits hv⟩
  rw [BitVec.toNat_ofNat]
  omega

/-- The checksum is the sum in 8-bit arithmetic. -/
theorem sum8_eq_sum (s : List Byte) : sum8 s = s.sum := by
  induction s with
  | nil => rfl
  | cons b s ih =>
    rw [List.sum_cons, ← ih]
    simp [sum8, BitVec.ofNat_add]

/-- Settles O7: both are the sum in 8-bit arithmetic. -/
theorem sum8IsTheByteSum : Obligations.Sum8IsTheByteSum := by
  unfold Obligations.Sum8IsTheByteSum
  intro s
  exact ⟨BitVec.toNat_ofNat .., by rw [sum8_eq_sum, List.sum_eq_foldl]⟩

/-- Settles O8: every frame is a body with its checksum behind it. -/
theorem frameEndsInItsChecksum : Obligations.FrameEndsInItsChecksum := by
  unfold Obligations.FrameEndsInItsChecksum
  intro c r bytes h
  obtain ⟨rfl, -⟩ := encodeFrame_ok h
  rw [withChecksum, List.getLast?_concat, List.dropLast_concat]

/-! The registers a command reads (40 R110, R124) -/

section
variable {r q : Regs} (hdev : r.devtype = q.devtype)
include hdev

theorem encodeFrame_stop_congr : encodeFrame params .stop r = encodeFrame params .stop q := by
  simp only [encodeFrame, stopBody, hdev]

variable (hgain : r.gain = q.gain) (href : r.refclk = q.refclk) (hf0 : r.f0 = q.f0)
include hgain href hf0

theorem encodeFrame_tone_congr : encodeFrame params .tone r = encodeFrame params .tone q := by
  have hfield : refclkField params r = refclkField params q := by rw [refclkField, refclkField, href]
  simp only [encodeFrame, toneBody]
  rw [hdev, hgain, hfield, hf0]

theorem encodeFrame_sweep_congr (hf1 : r.f1 = q.f1) (hstep : r.step = q.step) :
    encodeFrame params .sweep r = encodeFrame params .sweep q := by
  have hfield : refclkField params r = refclkField params q := by rw [refclkField, refclkField, href]
  have hraw : stepField r = stepField q := by rw [stepField, stepField, hstep]
  simp only [encodeFrame, sweepBody]
  rw [hdev, hgain, hfield, hf0, hf1, hraw]

end

/-- Settles O12: one congruence for each command's checks and body; STOP_NOACK is encoded as STOP is. -/
theorem encodeReadsOnlyItsOperands : Obligations.EncodeReadsOnlyItsOperands := by
  unfold Obligations.EncodeReadsOnlyItsOperands
  intro r q hdev
  have hstop := encodeFrame_stop_congr hdev
  refine ⟨hstop, hstop, fun hgain href hf0Lo hf0Hi => ?_⟩
  have hf0 : r.f0 = q.f0 := by rw [Regs.f0, Regs.f0, hf0Lo, hf0Hi]
  refine ⟨encodeFrame_tone_congr hdev hgain href hf0, fun hf1Lo hf1Hi hstep => ?_⟩
  have hf1 : r.f1 = q.f1 := by rw [Regs.f1, Regs.f1, hf1Lo, hf1Hi]
  exact encodeFrame_sweep_congr hdev hgain href hf0 hf1 hstep

/-! Scaled fields of a latched frame (40 R127, R128) -/

/-- What a receiver reads from the three bytes at `i` of the frame buffer. -/
def frameField (e : Engine) (i : Nat) : Nat :=
  fromBe3 (frameByte e i) (frameByte e (i + 1)) (frameByte e (i + 2))

theorem frameBody_length_lt (c : Command) (r : Regs) : (frameBody c r).length < 18 := by
  have hlen := (frameBody_length c r).1
  simp only [List.mem_cons, List.not_mem_nil, or_false] at hlen
  omega

/-- A number that a body holds in the three bytes from `i` on is read back there from the latched frame. -/
theorem frameField_of_latched {e : Engine} {c : Command} {r : Regs}
    (hframe : e.frame = zeroFill (withChecksum (frameBody c r))) {i v : Nat} (hv : v ≤ 16777215)
    (hpart : ((frameBody c r).drop i).take 3 = be3 v) : frameField e i = v := by
  have hmax := frameBody_length_lt c r
  have hin : i + 3 ≤ (frameBody c r).length := by
    have hlen : (((frameBody c r).drop i).take 3).length = 3 := by rw [hpart]; rfl
    rw [List.length_take, List.length_drop] at hlen
    omega
  have hbyte {k : Nat} (hk : k < 3) : frameByte e (i + k) = (be3 v).getD k 0 := by
    rw [frameByte, hframe, zeroFill_getD _ (by rw [withChecksum_length]; omega), withChecksum_getD_of_lt (by omega),
      ← hpart]
    simp [List.getElem?_take_of_lt hk]
  have htop : frameByte e i = (be3 v).getD 0 0 := hbyte (k := 0) (by decide)
  rw [frameField, htop, hbyte (by decide), hbyte (by decide)]
  exact fromBe3_of_fits hv

/-- A GO that starts sending has latched the frame the encoder gave; `c` is the command that `i` stands for. -/
theorem exec_sending {i : Instr} {c : Command} {s t : State} (hi : afterPrologue i = startCommand c)
    (hidle : s.eng.st = .idle) (h : exec i s = .next t) (hsend : t.eng.st = .send) :
    ∃ bytes, encodeFrame params c s.regs = .ok bytes ∧ t.eng.frame = zeroFill bytes := by
  rw [exec_next, if_pos hidle, hi] at h
  injection h with h
  subst h
  rcases startCommand_cases c s.regs (goPrologue (encode i) s.eng) with hreject | ⟨bytes, hbytes, haccept⟩
  · rw [hreject] at hsend
    cases hsend
  · exact ⟨bytes, hbytes, by rw [haccept, accept_frame]⟩

/-- The fields of a Tone frame being sent (30 R86). -/
theorem frameField_of_exec_tone {s t : State} (hidle : s.eng.st = .idle) (h : exec .tone s = .next t)
    (hsend : t.eng.st = .send) :
    frameField t.eng 4 = rnd .halfEven s.regs.refclk.toNat 100 ∧
      frameField t.eng 7 = rnd .halfEven s.regs.f0 1000 := by
  obtain ⟨_, hbytes, hframe⟩ := exec_sending (c := .tone) rfl hidle h hsend
  obtain ⟨rfl, -, hscaled, -⟩ := encodeFrame_ok hbytes
  obtain ⟨href, hf0⟩ := hscaled (.inl rfl)
  exact ⟨frameField_of_latched hframe href rfl, frameField_of_latched hframe hf0 rfl⟩

/-- The scaled fields of a Sweep frame being sent (30 R87). -/
theorem frameField_of_exec_sweep {s t : State} (hidle : s.eng.st = .idle) (h : exec .sweep s = .next t)
    (hsend : t.eng.st = .send) :
    frameField t.eng 4 = rnd .halfEven s.regs.refclk.toNat 100 ∧
      frameField t.eng 7 = rnd .halfEven s.regs.f0 1000 ∧ frameField t.eng 10 = rnd .halfEven s.regs.f1 1000 := by
  obtain ⟨_, hbytes, hframe⟩ := exec_sending (c := .sweep) rfl hidle h hsend
  obtain ⟨rfl, -, hscaled, hsweep⟩ := encodeFrame_ok hbytes
  obtain ⟨href, hf0⟩ := hscaled (.inr rfl)
  obtain ⟨hf1, -, -⟩ := hsweep rfl
  exact ⟨frameField_of_latched hframe href rfl, frameField_of_latched hframe hf0 rfl,
    frameField_of_latched hframe hf1 rfl⟩

/-- The scale law of one field: multiplied by twice `half`, it is the input within `half`. -/
theorem scaleLaw_of_eq_rnd {v n half : Nat} (hpos : 0 < half) (hv : v = rnd .halfEven n (2 * half)) :
    v * (2 * half) = rnd .halfEven n (2 * half) * (2 * half) ∧ n ≤ v * (2 * half) + half ∧
      v * (2 * half) ≤ n + half := by
  obtain ⟨hupper, hlower⟩ := rnd_within_half .halfEven n (d := 2 * half) (by omega)
  rw [← hv, Nat.mul_comm (2 * half) v] at hupper hlower
  exact ⟨by rw [hv], by omega, by omega⟩

/-- Settles O11: each field reads as the rounded quotient, to which the scale law applies. -/
theorem scaleLawOfEncodedFrames : Obligations.ScaleLawOfEncodedFrames := by
  unfold Obligations.ScaleLawOfEncodedFrames
  intro s t hidle hexec hsend f0 f1 field
  obtain ⟨href, hf0⟩ : field 4 = rnd .halfEven s.regs.refclk.toNat 100 ∧ field 7 = rnd .halfEven f0 1000 := by
    rcases hexec with h | h
    · exact frameField_of_exec_tone hidle h hsend
    · obtain ⟨href, hf0, -⟩ := frameField_of_exec_sweep hidle h hsend
      exact ⟨href, hf0⟩
  refine ⟨scaleLaw_of_eq_rnd (half := 50) (by decide) href, scaleLaw_of_eq_rnd (half := 500) (by decide) hf0, ?_⟩
  intro h _
  obtain ⟨-, -, hf1⟩ := frameField_of_exec_sweep hidle h hsend
  exact scaleLaw_of_eq_rnd (half := 500) (by decide) hf1

end Sys2Proof.Machine
end

section
/-! SUPPORT. How a command answers: an overrun while busy (41 R146), else the outcome of its GO, told by the kind of its
word and by the parameter error (41 R140, 60 R194, R199). -/

namespace Sys2Proof.Machine

/-- Settles O18: of the one equation for `exec`, the busy branch. -/
theorem busyCommandOnlyOverruns : Obligations.BusyCommandOnlyOverruns := by
  unfold Obligations.BusyCommandOnlyOverruns
  intro i s hbusy
  rw [exec_next, if_neg hbusy, overrunWrite]

/-! The checks of a GO (40 R124) -/

/-- The instruction that stands for a legal command. -/
def commandInstr : Command → Instr
  | .tone => .tone
  | .sweep => .sweep
  | .stop => .stop
  | .stopNoack => .stopNoack

theorem instr_cases (i : Instr) : (∃ w, i = .illegal w) ∨ ∃ c, i = commandInstr c := by
  cases i with
  | illegal w => exact .inl ⟨w, rfl⟩
  | tone => exact .inr ⟨.tone, rfl⟩
  | sweep => exact .inr ⟨.sweep, rfl⟩
  | stop => exact .inr ⟨.stop, rfl⟩
  | stopNoack => exact .inr ⟨.stopNoack, rfl⟩

theorem commandInstr_ne_illegal (c : Command) (w : Word) : commandInstr c ≠ .illegal w := by
  cases c <;> nofun

theorem afterPrologue_commandInstr (c : Command) : afterPrologue (commandInstr c) = startCommand c := by
  cases c <;> rfl

/-- The encoder's step check refuses 0 and a field error. -/
theorem stepLegal_eq_false_iff (v : Nat) : stepLegal params v = false ↔ v = 0 ∨ FieldError v := by
  rw [← Bool.not_eq_true, stepLegal_params, not_and_or, not_not, Nat.not_le]
  exact Iff.rfl

/-- A chain of checks with one error fails at its first check or after it. -/
theorem check_eq_error_iff {ε α : Type} {p : Prop} [Decidable p] {code : ε} {rest : Except ε α} :
    (if p then .error code else rest) = .error code ↔ p ∨ rest = .error code := by
  by_cases hp : p <;> simp [hp]

/-- The encoder fails exactly on a parameter error: the clauses of `ParamError` are its checks, in their order. -/
theorem encodeFrame_eq_error_iff (c : Command) (r : Regs) :
    encodeFrame params c r = .error .param ↔ ParamError (commandInstr c) r := by
  cases c <;>
    simp only [encodeFrame, commandInstr, ParamError, check_eq_error_iff, deviceError_iff, fieldError_iff,
      stepLegal_eq_false_iff, reduceCtorEq, or_false]

/-! The outcome of a legal command's GO (41 R140, 60 R194) -/

theorem startCommand_of_paramError {c : Command} {r : Regs} (h : ParamError (commandInstr c) r) (e : Engine) :
    startCommand c r e = reject .param e := by
  rw [startCommand, (encodeFrame_eq_error_iff c r).mpr h]

theorem startCommand_of_not_paramError {c : Command} {r : Regs} (h : ¬ ParamError (commandInstr c) r) (e : Engine) :
    ∃ bytes, startCommand c r e = accept bytes (Command.expectsAck c) r.timeout e := by
  rw [startCommand]
  cases hframe : encodeFrame params c r with
  | ok bytes => exact ⟨bytes, rfl⟩
  | error code =>
    rw [encodeFrame_error hframe] at hframe
    exact absurd ((encodeFrame_eq_error_iff c r).mp hframe) h

/-- Settles O19: an illegal word is rejected, and of a legal command the parameter error tells which way its GO ends. -/
theorem everyGoStartsOrRejects : Obligations.EveryGoStartsOrRejects := by
  unfold Obligations.EveryGoStartsOrRejects
  intro i s hidle
  refine ⟨_, exec_next i s, ?_⟩
  simp only [if_pos hidle]
  obtain ⟨w, rfl⟩ | ⟨c, rfl⟩ := instr_cases i
  · exact .inr ⟨rfl, rfl, rfl, .inl ⟨rfl, w, rfl⟩⟩
  rw [afterPrologue_commandInstr]
  by_cases hparam : ParamError (commandInstr c) s.regs
  · rw [startCommand_of_paramError hparam]
    exact .inr ⟨rfl, rfl, rfl, .inr ⟨rfl, hparam⟩⟩
  · obtain ⟨bytes, haccept⟩ :=
      startCommand_of_not_paramError hparam (goPrologue (encode (commandInstr c)) s.eng)
    rw [haccept]
    exact .inl ⟨rfl, rfl, rfl, rfl, hparam, commandInstr_ne_illegal c⟩

end Sys2Proof.Machine
end

section
/-! SUPPORT. The exchange events one by one: what a handshake, a received byte, a tick, a link error and a completion do
to the engine (42 R161 to R175). -/

namespace Sys2Proof.Machine

/-! Handshakes (42 R162, R163) -/

/-- Outside SEND there is no handshake. -/
theorem txAccept_of_not_send {s : State} (hst : s.eng.st ≠ .send) : txAccept s = s := by
  rw [txAccept, if_neg (mt (txValid_iff _).mp hst)]

@[simp] theorem afterLastByte_txcount (e : Engine) : (afterLastByte e).txcount = e.txcount := by
  rcases afterLastByte_cases e with ⟨-, h⟩ | ⟨-, h⟩ <;> simp [h]

/-- Settles O32: the handshake is one before the last byte, of the last byte, or none. -/
theorem txHandshakeSendsTheNextByte : Obligations.TxHandshakeSendsTheNextByte := by
  unfold Obligations.TxHandshakeSendsTheNextByte
  intro s
  refine ⟨fun hst hlt => ⟨txAccept s, rfl, ?_⟩, fun hst hlt => ?_, fun hst => ?_⟩
  · rcases txAccept_cases s with ⟨-, -, h⟩ | ⟨-, -, h⟩ | ⟨hover, -⟩
    · simp [h]
    · simp [h]
    · exact absurd (hover hst) (Nat.not_le.mpr hlt)
  · rw [performEvent, txAccept_of_lt hst hlt, emitByte]
  · rw [performEvent, txAccept_of_not_send hst]

/-- Settles O33, by the two ends of the last handshake. -/
theorem lastHandshakeOpensWindowOrCompletes : Obligations.LastHandshakeOpensWindowOrCompletes := by
  unfold Obligations.LastHandshakeOpensWindowOrCompletes
  intro s hst hlast
  rw [performEvent, txAccept_of_last hst hlast]
  rcases afterLastByte_cases (emitByte s).eng with ⟨hexpect, h⟩ | ⟨hexpect, h⟩ <;> rw [h]
  · have hyes : s.eng.expectAck = true := hexpect
    simp [hyes, openWindow, emitByte, hlast]
  · have hno : s.eng.expectAck = false := hexpect
    simp [hno, complete, ErrorCode.code, emitByte, hlast]

/-! Received bytes (42 R167 to R170) -/

/-- A byte collected in bounds goes to its place. -/
theorem storeAck_of_lt {e : Engine} (h : e.ackcnt < 3) (b : Byte) :
    storeAck b e = { e with ack := e.ack.set e.ackcnt b h, ackcnt := e.ackcnt + 1 } := by
  have hset : e.ack.setIfInBounds e.ackcnt b = e.ack.set e.ackcnt b h :=
    Vector.ext fun i hi => by rw [Vector.getElem_setIfInBounds, Vector.getElem_set]
  rw [storeAck, hset]

/-- A first or second byte of the window. -/
theorem rxByte_of_early {e : Engine} (hst : e.st = .waitAck) (hcnt : e.ackcnt + 1 < 3) (b : Byte) :
    rxByte b e = storeAck b e := by
  simp [rxByte, hst, hcnt]

/-- The third byte of the window. -/
theorem rxByte_of_third {e : Engine} (hst : e.st = .waitAck) (hcnt : e.ackcnt = 2) (b : Byte) :
    rxByte b e = complete (ackVerdict (storeAck b e)) (storeAck b e) := by
  simp [rxByte, hst, hcnt]

/-- A byte outside the window. -/
theorem rxByte_of_outside {e : Engine} (hst : e.st ≠ .waitAck) (b : Byte) : rxByte b e = { e with rxdisc := true } := by
  rcases rxByte_cases b e with ⟨h, -⟩ | ⟨h, -⟩ | ⟨h, -⟩ | ⟨-, h⟩
  · exact absurd h hst
  · exact absurd h hst
  · exact absurd h hst
  · exact h

/-- The decoder's answer, with the bytes it asks for as numbers (42 R169). -/
theorem decodeAck_params (a0 a1 a2 : Byte) :
    decodeAck params a0 a1 a2 = if a0 = 0xAD ∧ a1 = 0x66 ∧ a2 = 0x13 then .ok else .badAck := rfl

/-- Settles O40, by the decoder's one test. -/
theorem decodeAckAcceptsExactlyOne : Obligations.DecodeAckAcceptsExactlyOne := by
  unfold Obligations.DecodeAckAcceptsExactlyOne
  intro a0 a1 a2
  rw [decodeAck_params]
  by_cases hack : a0 = 0xAD ∧ a1 = 0x66 ∧ a2 = 0x13
  · rw [if_pos hack]
    exact ⟨iff_of_true rfl hack, .inl rfl⟩
  · rw [if_neg hack]
    exact ⟨iff_of_false nofun hack, .inr rfl⟩

/-- Settles O35: the byte is stored in bounds. -/
theorem earlyAckBytesAreCollected : Obligations.EarlyAckBytesAreCollected := by
  unfold Obligations.EarlyAckBytesAreCollected
  intro s b hlt hst hearly
  rw [performEvent, rxByte_of_early hst hearly, storeAck_of_lt hlt]

/-- The verdict on a third byte `b` after two collected ones, as ERR's code (42 R170, 60 R191). -/
theorem ackVerdict_storeAck_code {e : Engine} (hcnt : e.ackcnt = 2) (b : Byte) :
    (ackVerdict (storeAck b e)).code = if e.ack[0] = 0xAD ∧ e.ack[1] = 0x66 ∧ b = 0x13 then 0 else 5 := by
  have hverdict : ackVerdict (storeAck b e) = decodeAck params e.ack[0] e.ack[1] b := by
    simp [ackVerdict, hcnt]
  rw [hverdict, decodeAck_params, apply_ite ErrorCode.code]
  rfl

/-- Settles O36: the third byte is stored in bounds and the verdict falls on the three. -/
theorem thirdAckByteDecides : Obligations.ThirdAckByteDecides := by
  unfold Obligations.ThirdAckByteDecides
  intro s b hst hcnt
  rw [performEvent, rxByte_of_third hst hcnt, complete, ackVerdict_storeAck_code hcnt,
    storeAck_of_lt (by omega : s.eng.ackcnt < 3)]
  simp only [hcnt]

/-- Settles O37: neither state is the window. -/
theorem byteOutsideWindowIsDiscarded : Obligations.ByteOutsideWindowIsDiscarded := by
  unfold Obligations.ByteOutsideWindowIsDiscarded
  intro s b hst
  have hout : s.eng.st ≠ .waitAck := by rcases hst with hst | hst <;> simp [hst]
  rw [performEvent, rxByte_of_outside hout]

/-! Ticks (42 R171 to R173) -/

/-- A tick outside the window. -/
theorem tickEvent_of_outside {e : Engine} (hst : e.st ≠ .waitAck) : tickEvent e = e := by
  rcases tickEvent_cases e with ⟨h, -⟩ | ⟨h, -⟩ | ⟨-, h⟩
  · exact absurd h hst
  · exact absurd h hst
  · exact h

/-- A tick of the window below the limit. -/
theorem tickEvent_of_lt {e : Engine} (hst : e.st = .waitAck) (hlt : e.tcount.toNat + 1 < e.tlimit.toNat) :
    tickEvent e = { e with tcount := e.tcount + 1 } := by
  simp [tickEvent, hst, Nat.not_le.mpr hlt]

/-- The tick that brings the count to the limit. -/
theorem tickEvent_of_le {e : Engine} (hst : e.st = .waitAck) (hle : e.tlimit.toNat ≤ e.tcount.toNat + 1) :
    tickEvent e = complete .timeout { e with tcount := e.tcount + 1 } := by
  simp [tickEvent, hst, hle]

/-- Settles O38, by the three cases of a tick. -/
theorem tickCountsInWindowOnly : Obligations.TickCountsInWindowOnly := by
  unfold Obligations.TickCountsInWindowOnly
  intro s
  refine ⟨fun hst => ?_, fun hst hlt => ?_, fun hst hle => ?_⟩
  · rw [performEvent, tickEvent_of_outside hst]
  · rw [performEvent, tickEvent_of_lt hst hlt]
  · rw [performEvent, tickEvent_of_le hst hle]
    rfl

/-! Link errors and completions (42 R174, R175) -/

theorem linkErrEvent_of_busy {e : Engine} (hbusy : e.st ≠ .idle) : linkErrEvent e = complete .io e :=
  (linkErrEvent_cases e).elim And.right fun ⟨hidle, _⟩ => absurd hidle hbusy

theorem linkErrEvent_of_idle {e : Engine} (hidle : e.st = .idle) : linkErrEvent e = e :=
  (linkErrEvent_cases e).elim (fun ⟨hbusy, _⟩ => absurd hidle hbusy) And.right

/-- Settles O39: a command in progress completes with ERR_IO, an idle engine stays. -/
theorem linkErrorEndsTheCommand : Obligations.LinkErrorEndsTheCommand := by
  unfold Obligations.LinkErrorEndsTheCommand
  intro s
  refine ⟨fun hst => ?_, fun hidle => ?_⟩
  · have hbusy : s.eng.st ≠ .idle := by rcases hst with hst | hst <;> simp [hst]
    rw [performEvent, linkErrEvent_of_busy hbusy]
    rfl
  · rw [performEvent, linkErrEvent_of_idle hidle]

/-- Settles O41, code by code. -/
theorem completeChangesThreeFields : Obligations.CompleteChangesThreeFields := by
  unfold Obligations.CompleteChangesThreeFields
  intro c e
  exact ⟨by cases c <;> rfl, rfl⟩

end Sys2Proof.Machine
end

section
/-! SUPPORT. The exchange along steps and runs: what the TX port shows until a handshake, a stalled sink, how a command
ends, how long a window lasts (42 R161, R164, R171, R173, R178). -/

namespace Sys2Proof.Machine

/-! The TX port along a step (42 R161) -/

/-- A step from SEND without a handshake is a reset or a link error, which end the command, or keeps all that the TX
port shows. -/
theorem step_from_send {s t : State} (hst : s.eng.st = .send) (h : step s = .next t)
    (hev : pendingEvent s ≠ some .txAccept) :
    ((pendingEvent s = some .reset ∨ pendingEvent s = some .linkErr) ∧ t.eng.st = .idle) ∨
      (t.eng.st = .send ∧ t.eng.txcount = s.eng.txcount ∧ t.eng.frame = s.eng.frame ∧ t.txOut = s.txOut) := by
  rcases step_engine_cases s t h with ⟨heng, hout, -⟩ | ⟨hreset, heng, -, -⟩ | ⟨w, -, -, hout, heng⟩ |
    ⟨w, -, -, hout, heng⟩ | ⟨hlink, -, -, heng⟩ | ⟨htx, -⟩ | ⟨b, -, -, hout, heng⟩ | ⟨-, -, hout, heng⟩
  · exact .inr (by simp [heng, hst, hout])
  · exact .inl ⟨.inl hreset, by rw [heng]; rfl⟩
  · exact .inr (by simp [heng, hst, hout])
  · exact .inr (by simp [heng, hst, hout])
  · exact .inl ⟨.inr hlink, by rw [heng, linkErrEvent_of_busy (by simp [hst]), complete_st]⟩
  · exact absurd htx hev
  · exact .inr (by simp [heng, rxByte_of_outside, hst, hout])
  · exact .inr (by simp [heng, tickEvent_of_outside, hst, hout])

/-- Settles O34: a step that keeps `tx_valid` without a handshake keeps the frame and the count of bytes taken. -/
theorem txPortHoldsItsByteUntilTaken : Obligations.TxPortHoldsItsByteUntilTaken := by
  unfold Obligations.TxPortHoldsItsByteUntilTaken
  intro s
  refine ⟨txValid_iff s.eng, fun hst => if_pos ((txValid_iff _).mpr hst), fun t h hvalid hvalid' hev => ?_⟩
  rw [txValid_iff] at hvalid hvalid'
  rcases step_from_send hvalid h hev with ⟨-, hidle⟩ | ⟨-, hcount, hframe, -⟩
  · rw [hvalid'] at hidle; cases hidle
  · simp [txData, hvalid, hvalid', frameByte, hcount, hframe]

/-! A stalled sink (42 R164) -/

/-- An event leaves the ports alone. -/
theorem performEvent_inputs {ev : Event} {s t : State} (h : performEvent ev s = .next t) : t.inputs = s.inputs := by
  cases ev with
  | host a =>
    rw [performEvent] at h
    rcases hostAccess_cases a s with ⟨_, _, ha⟩ | ⟨r, _, ha⟩ | ⟨w, _, ha⟩ | ⟨w, _, ha⟩ | ⟨w, r, _, _, _, ha⟩ <;>
      rw [ha] at h
    · cases h
    · cases h; rfl
    · rw [exec_next] at h; cases h; rfl
    · cases h; rfl
    · cases h; rfl
  | txAccept =>
    injection h with h
    rcases txAccept_cases s with ⟨-, -, htx⟩ | ⟨-, -, htx⟩ | ⟨-, htx⟩ <;> rw [← h, htx] <;> rfl
  | _ => cases h; rfl

/-- A cycle that carries no reset, no link error and no handshake. -/
abbrev Cycle.Stalled (c : Cycle) : Prop := c.rst = false ∧ c.linkErr = false ∧ c.txReady = false

/-- What comes next of a stalled cycle is a host access, a byte or a tick, and it leaves a stalled cycle. -/
theorem nextEvent_of_stalled {c c' : Cycle} {ev : Event} (h : c.Stalled) (hev : nextEvent c = some (ev, c')) :
    c'.Stalled ∧ ev ≠ .reset ∧ ev ≠ .linkErr ∧ ev ≠ .txAccept := by
  obtain ⟨hrst, hlink, hready⟩ := h
  simp only [nextEvent, hrst, hlink, hready, Bool.false_eq_true, if_false] at hev
  split at hev
  · cases hev
    exact ⟨⟨rfl, rfl, rfl⟩, nofun, nofun, nofun⟩
  · split at hev
    · cases hev
      exact ⟨⟨rfl, rfl, rfl⟩, nofun, nofun, nofun⟩
    · split_ifs at hev
      cases hev
      exact ⟨⟨rfl, rfl, rfl⟩, nofun, nofun, nofun⟩

/-- On stalled ports the pending event is no reset, no link error and no handshake, and a step leaves stalled ports. -/
theorem step_of_stalled {s t : State} (hstall : ∀ c ∈ s.inputs, c.Stalled) (h : step s = .next t) :
    (∀ c ∈ t.inputs, c.Stalled) ∧
      pendingEvent s ≠ some .reset ∧ pendingEvent s ≠ some .linkErr ∧ pendingEvent s ≠ some .txAccept := by
  rcases step_cases s with ⟨-, hev, hs⟩ | ⟨c, cs, hin, -, hev, hs⟩ | ⟨c, cs, ev, c', hin, hnext, hev, hs⟩ <;>
    rw [hs] at h
  · cases h
    exact ⟨hstall, by simp [hev]⟩
  · cases h
    exact ⟨fun d hd => hstall d (by simp [hin, hd]), by simp [hev]⟩
  · obtain ⟨hc', hne⟩ := nextEvent_of_stalled (hstall c (by simp [hin])) hnext
    rw [performEvent_inputs h]
    refine ⟨fun d hd => ?_, by simpa [hev] using hne⟩
    rcases List.mem_cons.mp hd with rfl | hd
    · exact hc'
    · exact hstall d (by simp [hin, hd])

/-- A step of a stalled SEND: what the sink has been given so far, and the stall, stay. -/
theorem step_from_stalled_send {s t : State} (hst : s.eng.st = .send) (hstall : ∀ c ∈ s.inputs, c.Stalled)
    (h : step s = .next t) :
    (∀ c ∈ t.inputs, c.Stalled) ∧ t.eng.st = .send ∧ t.eng.txcount = s.eng.txcount ∧ t.txOut = s.txOut := by
  obtain ⟨hstall', hreset, hlink, htx⟩ := step_of_stalled hstall h
  rcases step_from_send hst h htx with ⟨hev | hev, -⟩ | ⟨hst', hcount, -, hout⟩
  · exact absurd hev hreset
  · exact absurd hev hlink
  · exact ⟨hstall', hst', hcount, hout⟩

/-- Settles O57, by induction on the length of the run. -/
theorem stalledSinkHangsInSend : Obligations.StalledSinkHangsInSend := by
  unfold Obligations.StalledSinkHangsInSend
  intro n
  induction n with
  | zero =>
    intro s t hst _ h
    cases h
    exact ⟨hst, rfl, rfl⟩
  | succ n ih =>
    intro s t hst hstall h
    simp only [Host.Core.run, core_step] at h
    cases hstep : step s with
    | next u =>
      rw [hstep] at h
      obtain ⟨hstall', hst', hcount, hout⟩ := step_from_stalled_send hst hstall hstep
      rw [← hcount, ← hout]
      exact ih u t hst' hstall' h
    | fault r => rw [hstep] at h; cases h
    | refused r => rw [hstep] at h; cases h

/-! The end of a command (42 R178) -/

/-- The engine has a command in progress, or a completion with one of the four codes that can end one. -/
abbrev Engine.BusyOrCompleted (e : Engine) : Prop :=
  e.st ≠ .idle ∨ (e.done = true ∧ (e.err = 0 ∨ e.err = 3 ∨ e.err = 4 ∨ e.err = 5))

theorem busyOrCompleted_complete {c : ErrorCode} (hc : c ≠ .cmd ∧ c ≠ .param) (e : Engine) :
    (complete c e).BusyOrCompleted :=
  .inr ⟨rfl, by cases c <;> simp_all [ErrorCode.code]⟩

theorem busyOrCompleted_linkErrEvent {e : Engine} (hbusy : e.st ≠ .idle) : (linkErrEvent e).BusyOrCompleted := by
  rw [linkErrEvent_of_busy hbusy]
  exact busyOrCompleted_complete (by decide) e

theorem busyOrCompleted_tickEvent {e : Engine} (hbusy : e.st ≠ .idle) : (tickEvent e).BusyOrCompleted := by
  rcases tickEvent_cases e with ⟨-, -, h⟩ | ⟨-, -, h⟩ | ⟨-, h⟩ <;> rw [h]
  · exact .inl hbusy
  · exact busyOrCompleted_complete (by decide) _
  · exact .inl hbusy

theorem busyOrCompleted_rxByte {e : Engine} (hbusy : e.st ≠ .idle) (b : Byte) : (rxByte b e).BusyOrCompleted := by
  rcases rxByte_cases b e with ⟨-, -, h⟩ | ⟨-, -, h⟩ | ⟨-, -, h⟩ | ⟨-, h⟩ <;> rw [h]
  · exact .inl hbusy
  · refine busyOrCompleted_complete ?_ _
    rcases ackVerdict_cases (storeAck b e) with hv | hv <;> simp [hv]
  · exact .inl hbusy
  · exact .inl hbusy

theorem busyOrCompleted_txAccept {s : State} (hbusy : s.eng.st ≠ .idle) : (txAccept s).eng.BusyOrCompleted := by
  rcases txAccept_cases s with ⟨-, -, h⟩ | ⟨-, -, h⟩ | ⟨-, h⟩ <;> rw [h]
  · exact .inl hbusy
  · rcases afterLastByte_cases (emitByte s).eng with ⟨-, h⟩ | ⟨-, h⟩ <;> simp only [h]
    · exact .inl (by simp)
    · exact busyOrCompleted_complete (by decide) _
  · exact .inl hbusy

/-- An exchange event that leaves the engine idle has completed the command and kept its frame. -/
theorem completion_of_exchange {e e' : Engine} (hkeeps : e.ExchangeKeeps e') (h : e'.BusyOrCompleted)
    (hidle : e'.st = .idle) :
    e'.done = true ∧ (e'.err = 0 ∨ e'.err = 3 ∨ e'.err = 4 ∨ e'.err = 5) ∧
      e'.frame = e.frame ∧ e'.flen = e.flen ∧ e'.expectAck = e.expectAck := by
  obtain ⟨hdone, herr⟩ := h.resolve_left (not_not_intro hidle)
  exact ⟨hdone, herr, hkeeps.frame, hkeeps.flen, hkeeps.expectAck⟩

/-- Settles O55: of the steps of a busy engine, reset and the exchange events alone can leave it idle. -/
theorem busyEndsInOneCompletion : Obligations.BusyEndsInOneCompletion := by
  unfold Obligations.BusyEndsInOneCompletion
  intro s t hbusy h hidle
  rcases step_engine_cases s t h with ⟨heng, -, -⟩ | ⟨hreset, heng, hregs, -⟩ | ⟨w, -, -, -, heng⟩ |
    ⟨w, -, -, -, heng⟩ | ⟨-, -, -, heng⟩ | ⟨-, -, -, heng⟩ | ⟨b, -, -, -, heng⟩ | ⟨-, -, -, heng⟩
  · exact absurd (heng ▸ hidle) hbusy
  · exact .inl ⟨hreset, heng, hregs⟩
  · rw [heng, if_neg hbusy] at hidle
    exact absurd hidle hbusy
  · rw [heng] at hidle
    exact absurd hidle hbusy
  · exact .inr (heng ▸ completion_of_exchange (exchangeKeeps_linkErrEvent _) (busyOrCompleted_linkErrEvent hbusy)
      (heng ▸ hidle))
  · exact .inr (heng ▸ completion_of_exchange (exchangeKeeps_txAccept s) (busyOrCompleted_txAccept hbusy)
      (heng ▸ hidle))
  · exact .inr (heng ▸ completion_of_exchange (exchangeKeeps_rxByte b _) (busyOrCompleted_rxByte hbusy b)
      (heng ▸ hidle))
  · exact .inr (heng ▸ completion_of_exchange (exchangeKeeps_tickEvent _) (busyOrCompleted_tickEvent hbusy)
      (heng ▸ hidle))

/-! The last tick of a window (42 R171, R173) -/

/-- `e` with `n` ticks counted. -/
def withTicks (n : Nat) (e : Engine) : Engine := { e with tcount := BitVec.ofNat 32 n }

/-- No number of ticks up to the window's length wraps the count (42 R179). -/
theorem withTicks_tcount_toNat {n : Nat} {e : Engine} (h : n ≤ windowTicks e) : (withTicks n e).tcount.toNat = n := by
  have hlimit := e.tlimit.isLt
  have hmax : windowTicks e = max e.tlimit.toNat 1 := rfl
  rw [withTicks, BitVec.toNat_ofNat, Nat.mod_eq_of_lt (by omega)]

/-- One more tick on `n` counted ones. -/
theorem withTicks_succ (n : Nat) (e : Engine) :
    { withTicks n e with tcount := (withTicks n e).tcount + 1 } = withTicks (n + 1) e := by
  rw [withTicks, withTicks, BitVec.ofNat_add]
  rfl

/-- Ticks short of the window's length are counted. -/
theorem iterate_tickEvent_of_lt {e : Engine} (hst : e.st = .waitAck) (hzero : e.tcount = 0) (n : Nat)
    (hlt : n < windowTicks e) : tickEvent^[n] e = withTicks n e := by
  induction n with
  | zero => rw [Function.iterate_zero_apply, withTicks, show BitVec.ofNat 32 0 = e.tcount from hzero.symm]
  | succ n ih =>
    have hlimit : (withTicks n e).tcount.toNat + 1 < e.tlimit.toNat := by
      rw [withTicks_tcount_toNat (by omega)]
      exact (lt_max_iff.mp hlt).resolve_right (by omega)
    rw [Function.iterate_succ_apply', ih (by omega), tickEvent_of_lt (e := withTicks n e) hst hlimit, withTicks_succ]

/-- As many ticks as the window is long expire it. -/
theorem iterate_tickEvent_of_last {e : Engine} (hst : e.st = .waitAck) (hzero : e.tcount = 0) {n : Nat}
    (hlast : n + 1 = windowTicks e) : tickEvent^[n + 1] e = complete .timeout (withTicks (n + 1) e) := by
  have hlimit : e.tlimit.toNat ≤ (withTicks n e).tcount.toNat + 1 := by
    rw [withTicks_tcount_toNat (by omega), hlast]
    exact le_max_left _ _
  rw [Function.iterate_succ_apply', iterate_tickEvent_of_lt hst hzero n (by omega),
    tickEvent_of_le (e := withTicks n e) hst hlimit, withTicks_succ]

/-- Tick cycles run as ticks, two steps a cycle (log entry 2). -/
theorem run_tick_cycles (n : Nat) (s : State) (rest : List Cycle)
    (hinputs : s.inputs = List.replicate n { tick := true } ++ rest) :
    Host.Core.run core (2 * n) s = .next { s with eng := tickEvent^[n] s.eng, inputs := rest } := by
  induction n generalizing s with
  | zero =>
    obtain rfl : s.inputs = rest := hinputs
    rfl
  | succ n ih =>
    rw [List.replicate_succ, List.cons_append] at hinputs
    rw [Nat.mul_succ, run_one_signal s _ _ .tick _ _ hinputs rfl rfl rfl, ih _ rfl]
    rfl

/-- Settles O59: the ticks are counted below the window's length, and the one that reaches it completes with
ERR_TIMEOUT. -/
theorem windowExpiresAtItsLastTick : Obligations.WindowExpiresAtItsLastTick := by
  unfold Obligations.WindowExpiresAtItsLastTick
  intro n s rest hst hzero hle hinputs
  refine ⟨_, run_tick_cycles n s rest hinputs, rfl, ?_⟩
  have hcount : (withTicks n s.eng).tcount.toNat = n := withTicks_tcount_toNat hle
  rcases Nat.lt_or_eq_of_le hle with hlt | hlast
  · rw [iterate_tickEvent_of_lt hst hzero n hlt]
    exact ⟨hcount, rfl, rfl, fun _ => ⟨hst, rfl⟩, fun heq => absurd heq hlt.ne⟩
  · obtain ⟨m, rfl⟩ : ∃ m, n = m + 1 := Nat.exists_eq_add_one.mpr (by omega)
    rw [iterate_tickEvent_of_last hst hzero hlast]
    exact ⟨hcount, rfl, rfl, fun hlt => absurd hlast hlt.ne, fun _ => ⟨rfl, rfl, rfl⟩⟩

end Sys2Proof.Machine
end

section
/-! SUPPORT. The result codes and when they are recorded: a GO that is rejected, for its word or for its parameters, and a
third acknowledgement byte in the same cycle as a tick (60 R191 to R194, R200). -/

namespace Sys2Proof.Machine

/-! The codes (60 R191, R192) -/

/-- The codes are numbered in the order of their constructors, so that a number gives its code back. -/
theorem errorCode_ofNat_code (c : ErrorCode) : ErrorCode.ofNat c.code.toNat = c := by
  cases c <;> rfl

/-- Settles O44, code by code, and by reading a code back from its number. -/
theorem errorCodesAndClasses : Obligations.ErrorCodesAndClasses := by
  unfold Obligations.ErrorCodesAndClasses
  refine ⟨fun c => by cases c <;> rfl, fun c d h => ?_⟩
  rw [← errorCode_ofNat_code c, h, errorCode_ofNat_code]

/-! Rejected GOs (60 R193, R194) -/

/-- A rejected GO records its word and its code, and empties every buffer and count; nothing of the command before it is
left but TIMEOUT's sample and the sticky flags (41 R140). -/
theorem exec_rejects {i : Instr} {s : State} {code : ErrorCode} (hidle : s.eng.st = .idle)
    (h : ∀ e, afterPrologue i s.regs e = reject code e) :
    exec i s = .next { s with
      eng := { s.eng with
        cmdLast := encode i, st := .idle, expectAck := false, frame := Vector.replicate 18 0, flen := 0, txcount := 0
        ack := Vector.replicate 3 0, ackcnt := 0, tcount := 0, done := true, err := code.code } } := by
  rw [exec_next, if_pos hidle, h, reject, zeroFill_nil]
  rfl

/-- FRAMEBUF reads 0 while the frame is empty (10 R41). -/
theorem framebufWord_of_empty {e : Engine} (h : e.flen = 0) (k : Nat) : framebufWord e k = 0 := by
  simp [framebufWord, frameLane, h]

/-- ACKDATA reads 0 while no byte is collected (10 R37). -/
theorem ackdataWord_of_empty {e : Engine} (h : e.ackcnt = 0) : ackdataWord e = 0 := by
  simp [ackdataWord, ackLane, h]

/-- FRAMEINFO reads 0 while the frame is empty and nothing is sent (10 R38). -/
theorem frameinfoWord_of_empty {e : Engine} (htx : e.txcount = 0) (hflen : e.flen = 0) : frameinfoWord e = 0 := by
  simp [frameinfoWord, htx, hflen]

/-- Settles O16: a word outside the table decodes to ILLEGAL, whose GO is rejected, and a rejected GO leaves the buffers
empty. -/
theorem illegalWordCompletesWithErrCmd : Obligations.IllegalWordCompletesWithErrCmd := by
  unfold Obligations.IllegalWordCompletesWithErrCmd
  intro s w hidle hw
  have hexec := exec_rejects (i := .illegal w) hidle fun _ => rfl
  exact ⟨_, hexec, Laws.CommandWord.illegal w hw, rfl, rfl, frameinfoWord_of_empty rfl rfl, ackdataWord_of_empty rfl,
    framebufWord_of_empty rfl 0, framebufWord_of_empty rfl 1, framebufWord_of_empty rfl 2,
    framebufWord_of_empty rfl 3, framebufWord_of_empty rfl 4⟩

/-- A parameter error is one of a legal command, and rejects its GO whichever check failed. -/
theorem afterPrologue_of_paramError {i : Instr} {r : Regs} (h : ParamError i r) (e : Engine) :
    afterPrologue i r e = reject .param e := by
  obtain ⟨w, rfl⟩ | ⟨c, rfl⟩ := instr_cases i
  · exact h.elim
  · rw [afterPrologue_commandInstr, startCommand_of_paramError h]

/-- The parameter errors of SWEEP are those of TONE, and F1 or STEP out of range (40 R124). -/
theorem paramError_sweep_iff (r : Regs) :
    ParamError .sweep r ↔
      ParamError .tone r ∨ FieldError (freqField params r.f1) ∨ r.step = 0 ∨ FieldError r.step.toNat := by
  have hzero : stepField r = 0 ↔ r.step = 0 := (BitVec.toNat_eq (x := r.step) (y := 0)).symm
  rw [ParamError, ParamError, hzero, or_assoc, or_assoc]
  exact Iff.rfl

/-- Settles O17: the constants of `ParamError` are the numbers, and each such error rejects the GO in the same way. -/
theorem parameterErrorCompletesWithErrParam : Obligations.ParameterErrorCompletesWithErrParam := by
  unfold Obligations.ParameterErrorCompletesWithErrParam
  intro i s f0 f1 badDevice badTone
  constructor
  · cases i with
    | sweep => exact paramError_sweep_iff s.regs
    | tone => exact Iff.rfl
    | stop => exact Iff.rfl
    | stopNoack => exact Iff.rfl
    | illegal w => exact Iff.rfl
  · intro hidle herror
    exact exec_rejects hidle (afterPrologue_of_paramError herror)

/-! A byte and a tick in one cycle (60 R200) -/

/-- A cycle with a byte and a tick runs as the byte and then the tick, in two steps (log entry 3). -/
theorem run_rx_tick_cycle {s : State} {b : Byte} {cs : List Cycle}
    (hinputs : s.inputs = { rx := some b, tick := true } :: cs) :
    Host.Core.run core 2 s = .next { s with eng := tickEvent (rxByte b s.eng), inputs := {} :: cs } := by
  have hbyte : step s = .next { s with eng := rxByte b s.eng, inputs := { tick := true } :: cs } := by
    rw [step, stepInputs, hinputs]
    rfl
  simp only [Host.Core.run, core_step, hbyte]
  rfl

/-- Settles O51: the third byte completes the command, and the tick after it meets an idle engine. -/
theorem thirdAckByteBeatsTheTick : Obligations.ThirdAckByteBeatsTheTick := by
  unfold Obligations.ThirdAckByteBeatsTheTick
  intro s b cs hst hcnt hinputs
  have hengine : tickEvent (rxByte b s.eng) = complete (ackVerdict (storeAck b s.eng)) (storeAck b s.eng) := by
    rw [rxByte_of_third hst hcnt, tickEvent_of_outside (by simp)]
  refine ⟨_, run_rx_tick_cycle hinputs, ?_⟩
  simp only [hengine]
  exact ⟨rfl, rfl, rfl, ackVerdict_storeAck_code hcnt b⟩

end Sys2Proof.Machine
end
